-- ==== Sys2Proof/Word.lean ====
section
/-!
DEFINITION. The words of `RFS-CORE`, by the widths the spec gives them (00_scope.md R9, 30_encoding.md R100).
Every value is unsigned, bit 0 the least significant (00_scope.md R11).
-/
namespace Sys2Proof

/-- An 8-bit value: a cursor, a gray code, a `PinSnapshot` (R34, R101). -/
abbrev Byte := BitVec 8

/-- A timestamp or count of ticks in its 16-bit register (R40, R102); `TS_W` of its bits count (R9). -/
abbrev Ts := BitVec 16

/-- One FIFO slot at the widest `DATA_W` (17, variant RF); ENC uses bits 7:0 and IR bits 15:0 (R9, R100). -/
abbrev Slot := BitVec 17

/-- A stimulus word (R112). -/
abbrev StimWord := BitVec 32

/-- An event word `kind[3:0], payload[31:0]` (R108). -/
abbrev EventWord := BitVec 36

/-- The 24-bit frame value of variant RF (R53, R228). -/
abbrev FrameValue := BitVec 24

end Sys2Proof
end

