-- ==== Sys2Proof/Config.lean ====
section
/-!
DEFINITION. The elaboration parameters of 00_scope.md R9 (`Params`, held in State and written by no step), the extents of
the fixed-width registers, and the values the spec leaves open.
-/
namespace Sys2Proof

/-- The three variants (R3). -/
inductive Variant where
  | enc
  | ir
  | rf
deriving DecidableEq, Repr

/-- `FRAME_BIT_ORDER` (R9, R228). -/
inductive BitOrder where
  | msbFirst
  | lsbFirst
deriving DecidableEq, Repr

/-- The elaboration parameters of R9 that an instance is launched with. DESIGN CHOICE: they are held in State, so
that a statement about every state is a statement about every instance (log entry 1). Unsafe only for State.reset's values. -/
structure Params where
  /-- `VARIANT` (R3). -/
  variant : Variant
  /-- `PTR_W`, the width of each cursor; `DEPTH` is 2 to its power (R10). Legal from 1 to 8, what the 8-bit cursors of
  R34 to R38 hold (log entry 13). -/
  ptrW : Nat
  /-- `SYNC_STAGES`, at least 2. -/
  syncStages : Nat
  /-- `IN_SYNC_STAGES`; no step reads it (R44, R151; log entry 14). -/
  inSyncStages : Nat
  /-- `TS_W`, the bits that count and time. Legal from 1 to 16, what the 16-bit registers and fields of R40, R48, R51, R52,
  R102 and R103 hold (log entry 13). -/
  tsW : Nat
  /-- `SENTINEL`, the overflow marker of the 16-bit timestamp field; not bounded by `TS_W` (log entry 24). -/
  sentinel : Ts
  /-- `REMAP`, what an edge captured at counter value 0 records (R104); not bounded by `TS_W` (log entry 24). -/
  remap : Ts
  /-- `WRAP_SPAN`, the counts in one counter period that a bridged pulse adds (R200, R202); R9 gives it no legal range
  (log entry 22). -/
  wrapSpan : Nat
  /-- `MON_MASK`, the monitored lines of ENC. -/
  monMask : Byte
  /-- `ROT_P0_BIT`. -/
  rotP0Bit : Fin 8
  /-- `ROT_P1_BIT`. -/
  rotP1Bit : Fin 8
  /-- `BTN_BIT`. -/
  btnBit : Fin 8
  /-- `REST`, the detent pin pair. -/
  rest : BitVec 2
  /-- `PAT_CCW`. -/
  patCcw : BitVec 6
  /-- `PAT_CW`. -/
  patCw : BitVec 6
  /-- `ROT_STEP`. -/
  rotStep : Byte
  /-- `US_PER_TICK`, OPEN, unsigned 16 bits. -/
  usPerTick : BitVec 16
  /-- `SYNC_THRESHOLD`, ticks. -/
  syncThreshold : Nat
  /-- `BIT_THRESHOLD`, ticks. -/
  bitThreshold : Nat
  /-- `FRAME_LEN`, the slots of an RF frame. Legal from 1 to 24, what the registers of R50 to R53 and the payload of R109
  hold (log entry 13). -/
  frameLen : Nat
  /-- `FRAME_BIT_ORDER`. -/
  frameBitOrder : BitOrder
  /-- `SYNC_TIMEOUT`, milliseconds, OPEN; realised outside the block as the strobe `TMO`, so no step reads it (R256, U13). -/
  syncTimeout : Nat
  /-- `EDGE_SEL_INIT`; true is rising. -/
  edgeSelInit : Bool
  /-- `PASS_EN`. -/
  passEn : Bool
  /-- `PASS_INV`. -/
  passInv : Bool
  /-- `PUSHQ_DEPTH`, the entries of the capture push skid (R166; other depths than 1: log entry 13). -/
  pushqDepth : Nat
  /-- `OUT_Q_DEPTH`, at least 2; no step reads it (R111; log entry 14). -/
  outQDepth : Nat
deriving DecidableEq, Repr

/-- `PASS_EN` by variant: IR 1, ENC and RF 0 (R9). -/
def passEnDefault (v : Variant) : Bool := v == .ir

/-- R9's defaults for a variant. `US_PER_TICK` and `SYNC_TIMEOUT` are OPEN there; the 1 (the K = 1 of 95_test_vectors.md)
and the nominal 5000 are DESIGN CHOICE (log entry 1). -/
def Params.default (v : Variant) : Params :=
  { variant := v
    ptrW := 8
    syncStages := 2
    inSyncStages := 2
    tsW := 16
    sentinel := 0x0000#16
    remap := 0xFFFF#16
    wrapSpan := 65536
    monMask := 0x07#8
    rotP0Bit := 0
    rotP1Bit := 1
    btnBit := 2
    rest := 0b11#2
    patCcw := 0b000111#6
    patCw := 0b001011#6
    rotStep := 4#8
    usPerTick := 1#16
    syncThreshold := 20000
    bitThreshold := 1000
    frameLen := 24
    frameBitOrder := .msbFirst
    syncTimeout := 5000
    edgeSelInit := true
    passEn := passEnDefault v
    passInv := false
    pushqDepth := 1
    outQDepth := 2 }

/-- `DEPTH`, the FIFO slots (R9, R10). -/
def Params.depth (p : Params) : Nat := 2 ^ p.ptrW

/-- The cursor bits in use: the low `PTR_W` bits. -/
def Params.ptrMask (p : Params) : Byte := BitVec.ofNat 8 (p.depth - 1)

/-- The bits of a timestamp in use: the low `TS_W` bits. -/
def Params.tsMask (p : Params) : Ts := BitVec.ofNat 16 (2 ^ p.tsW - 1)

/-- The slot index space 0 to 255 that an 8-bit cursor reaches (R70, R71). -/
def Config.slotIndices : Nat := 256

/-- `draw()` of R12: a value the model does not determine, fresh at each use: the `n`-th value drawn (R82, R137;
93_implementation_defined.md U1, U3, U4). It has no body, so no proof can know it (log entry 7). Safe. -/
opaque Config.freeValue : Nat → BitVec 17

/-- The ticks of a bridged pulse whose start lies after `cur + WRAP_SPAN`, from `WRAP_SPAN`, the start and `cur`. R208
excludes the case at R9's values and no rule states a result for it (log entry 22). It has no body, so no proof can know
it. DESIGN CHOICE. Safe. -/
opaque Config.unstatedTicks : Nat → Ts → Ts → Nat

end Sys2Proof
end

