-- ==== Sys2Proof/Syntax.lean ====
section
/-!
DEFINITION. The encoded words of 30_encoding.md as syntax: one constructor of `Instr` per row of spec/opcode_table.json
(7 stimulus words, 6 sample classes, 8 event kinds), the event kinds, and the pseudo-instructions of R116.
-/
namespace Sys2Proof

/-- One constructor per row of spec/opcode_table.json. -/
inductive Instr where
  /-- `PIN v`: producer step of ENC with the synchronised `pins_in` value (R113, R152). -/
  | pin (v : Byte)
  /-- `PSTEP lvl, tick`: producer step of IR and RF (R113, R155). -/
  | pstep (lvl tick : Bool)
  /-- `SYNC`: the write-pointer synchroniser step (R113, R133). -/
  | sync
  /-- `CSTEP`: the consumer step (R113, R253). -/
  | cstep
  /-- `RESET init`: reset of both domains (R113, R254). -/
  | reset (init : Byte)
  /-- `RFEN v`: the new value of `rf_enable` (R113, R255). -/
  | rfen (v : Bool)
  /-- `TMO`: the `rf_timeout` strobe (R113, R256). -/
  | tmo
  /-- `SAMPLE_ENC.SNAP`: any 8-bit snapshot (R101, R106). -/
  | sampleEncSnap (snap : Byte)
  /-- `SAMPLE_IR.SENT`: `ts = 0x0000` (R102, R106). -/
  | sampleIrSent
  /-- `SAMPLE_IR.EDGE`: a timestamp that is not 0 (R102, R106). -/
  | sampleIrEdge (ts : Ts)
  /-- `SAMPLE_RF.SENT`: `ts = 0x0000` with any polarity bit (R103, R106, R107). -/
  | sampleRfSent (pol : Bool)
  /-- `SAMPLE_RF.RISE`: polarity 1, a timestamp that is not 0 (R103, R106). -/
  | sampleRfRise (ts : Ts)
  /-- `SAMPLE_RF.FALL`: polarity 0, a timestamp that is not 0 (R103, R106). -/
  | sampleRfFall (ts : Ts)
  /-- `EVENT.BUTTON_PRESSED`, payload 0 (R109). -/
  | eventButtonPressed
  /-- `EVENT.BUTTON_RELEASED`, payload 0 (R109). -/
  | eventButtonReleased
  /-- `EVENT.ROT_CW`, payload the zero-extended `rot_count` (R109). -/
  | eventRotCw (count : Byte)
  /-- `EVENT.ROT_CCW`, payload the zero-extended `rot_count` (R109). -/
  | eventRotCcw (count : Byte)
  /-- `EVENT.PULSE`, payload the 32-bit duration (R109, R206). -/
  | eventPulse (duration : BitVec 32)
  /-- `EVENT.GAP`, payload 0 (R109). -/
  | eventGap
  /-- `EVENT.ANOMALY`, payload 0 (R109). -/
  | eventAnomaly
  /-- `EVENT.FRAME`, payload the zero-extended 24-bit frame value (R109). -/
  | eventFrame (value : FrameValue)
deriving DecidableEq, Repr

/-- The eight event kinds (R109). -/
inductive EventKind where
  | buttonPressed
  | buttonReleased
  | rotCw
  | rotCcw
  | pulse
  | gap
  | anomaly
  | frame
deriving DecidableEq, Repr

/-- The pseudo-instructions of a trace (R116). -/
inductive Pseudo where
  /-- `EDGE lvl`. -/
  | edge (lvl : Bool)
  /-- `TICKS n, lvl`. -/
  | ticks (n : Nat) (lvl : Bool)
  /-- `SETTLE`. -/
  | settle
  /-- `DRAIN`. -/
  | drain
deriving DecidableEq, Repr

end Sys2Proof
end

