-- ==== Sys2Proof/WellFormed.lean ====
section
/-!
DEFINITION. Which instructions are words the spec allows: the restriction on the operands that the typed fields do not
already carry, and the variants a row lists (30_encoding.md R106, R109, R113, R114).
-/
namespace Sys2Proof

/-- The variants column of the row (R106, R109, R113). -/
def Instr.listedIn (i : Instr) (v : Variant) : Bool :=
  match i with
  | .pin _ => v == .enc
  | .pstep _ _ => v != .enc
  | .sync => true
  | .cstep => true
  | .reset _ => true
  | .rfen _ => v == .rf
  | .tmo => v == .rf
  | .sampleEncSnap _ => v == .enc
  | .sampleIrSent => v == .ir
  | .sampleIrEdge _ => v == .ir
  | .sampleRfSent _ => v == .rf
  | .sampleRfRise _ => v == .rf
  | .sampleRfFall _ => v == .rf
  | .eventButtonPressed => v == .enc
  | .eventButtonReleased => v == .enc
  | .eventRotCw _ => v == .enc
  | .eventRotCcw _ => v == .enc
  | .eventPulse _ => v == .ir
  | .eventGap => v == .ir
  | .eventAnomaly => v == .ir
  | .eventFrame _ => v == .rf

/-- The operands are ones the row's word can carry: an edge sample has `ts` other than 0, because a word with `ts = 0`
is the sentinel, tried first (R104, R106). -/
def Instr.wellFormed (i : Instr) : Bool :=
  match i with
  | .sampleIrEdge ts => ts != 0
  | .sampleRfRise ts => ts != 0
  | .sampleRfFall ts => ts != 0
  | .pin _ | .pstep _ _ | .sync | .cstep | .reset _ | .rfen _ | .tmo => true
  | .sampleEncSnap _ | .sampleIrSent | .sampleRfSent _ => true
  | .eventButtonPressed | .eventButtonReleased | .eventRotCw _ | .eventRotCcw _ => true
  | .eventPulse _ | .eventGap | .eventAnomaly | .eventFrame _ => true

/-- `RESET` with bits 7:1 of `init` nonzero is illegal in IR and RF (R113, R114). -/
def initLegal (v : Variant) (init : Byte) : Bool :=
  v == .enc || init &&& 0xFE#8 == 0#8

/-- The operands are ones the variant allows: only `RESET` restricts them by variant (R114). -/
def Instr.operandsLegalIn (i : Instr) (v : Variant) : Bool :=
  match i with
  | .reset init => initLegal v init
  | .pin _ | .pstep _ _ | .sync | .cstep | .rfen _ | .tmo => true
  | .sampleEncSnap _ | .sampleIrSent | .sampleIrEdge _ | .sampleRfSent _ | .sampleRfRise _ | .sampleRfFall _ => true
  | .eventButtonPressed | .eventButtonReleased | .eventRotCw _ | .eventRotCcw _ => true
  | .eventPulse _ | .eventGap | .eventAnomaly | .eventFrame _ => true

/-- The instruction is legal for an instance of the variant: well-formed, its row lists the variant, and its operands
are allowed there (R114). -/
def Instr.legalIn (i : Instr) (v : Variant) : Bool :=
  i.wellFormed && i.listedIn v && i.operandsLegalIn v

end Sys2Proof
end

