-- ==== Sys2Proof/Decode.lean ====
section
/-!
DEFINITION. The decoders of the five formats of 30_encoding.md, total on every word and rejecting by name, and the
encoder from the same tables. No format is split into bytes (20_memory.md R73): a word is decoded whole.
-/
namespace Sys2Proof

/-- A word with the format it is in (R100). -/
inductive Coded where
  /-- `SAMPLE_ENC`, 8 bits (R101). -/
  | sampleEnc (w : Byte)
  /-- `SAMPLE_IR`, 16 bits (R102). -/
  | sampleIr (w : Ts)
  /-- `SAMPLE_RF`, 17 bits (R103). -/
  | sampleRf (w : Slot)
  /-- `EVENT`, 36 bits (R108). -/
  | event (w : EventWord)
  /-- `STIM`, 32 bits (R112). -/
  | stim (w : StimWord)
deriving DecidableEq, Repr

/-- Why a word is refused (R110, R114). -/
inductive DecodeError where
  /-- A stimulus word whose `op` is 0x0 or 0x8 to 0xF (R114). -/
  | reservedOp (op : Nat)
  /-- A stimulus word with a nonzero bit outside its row's fields (R114). -/
  | reservedBits (mnemonic : String)
  /-- An event word whose code is 0x0 or 0x9 to 0xF (R110). -/
  | reservedKind (code : Nat)
  /-- An event word with a payload bit outside the kind's range (R110). -/
  | payloadRange (mnemonic : String)
deriving DecidableEq, Repr

/-- What a decoder answers: the instruction the word is, or why it is none. -/
inductive Decoded where
  | ok (i : Instr)
  | error (e : DecodeError)
deriving DecidableEq, Repr

/-- The kind codes of R109. -/
def kindCode (k : EventKind) : BitVec 4 :=
  match k with
  | .buttonPressed => 0x1#4
  | .buttonReleased => 0x2#4
  | .rotCw => 0x3#4
  | .rotCcw => 0x4#4
  | .pulse => 0x5#4
  | .gap => 0x6#4
  | .anomaly => 0x7#4
  | .frame => 0x8#4

/-- The event word: bits 35:32 the kind, bits 31:0 the payload (R108). -/
def eventWord (k : EventKind) (payload : BitVec 32) : EventWord :=
  kindCode k ++ payload

/-- The `SAMPLE_RF` word: bit 16 the polarity, bits 15:0 the timestamp (R103). -/
def rfWord (pol : Bool) (ts : Ts) : Slot :=
  BitVec.ofBool pol ++ ts

/-- The stimulus word with operation `op` in bits 31:28 and an 8-bit operand in bits 7:0 (R112). -/
def stimWord (op : BitVec 4) (operand : Byte) : StimWord :=
  op ++ (0#20 ++ operand)

/-- The decoder of stimulus words, row by row of R113; every other word is refused by name (R114). -/
def decodeStim (w : StimWord) : Decoded :=
  match (w.extractLsb' 28 4).toNat with
  | 1 => if w.extractLsb' 8 20 = 0#20 then .ok (.pin (w.extractLsb' 0 8)) else .error (.reservedBits "PIN")
  | 2 => if w.extractLsb' 2 26 = 0#26 then .ok (.pstep (w.getLsbD 0) (w.getLsbD 1)) else .error (.reservedBits "PSTEP")
  | 3 => if w.extractLsb' 0 28 = 0#28 then .ok .sync else .error (.reservedBits "SYNC")
  | 4 => if w.extractLsb' 0 28 = 0#28 then .ok .cstep else .error (.reservedBits "CSTEP")
  | 5 => if w.extractLsb' 8 20 = 0#20 then .ok (.reset (w.extractLsb' 0 8)) else .error (.reservedBits "RESET")
  | 6 => if w.extractLsb' 1 27 = 0#27 then .ok (.rfen (w.getLsbD 0)) else .error (.reservedBits "RFEN")
  | 7 => if w.extractLsb' 0 28 = 0#28 then .ok .tmo else .error (.reservedBits "TMO")
  | op => .error (.reservedOp op)

/-- The sentinel timestamp of the formats (R102, R103), `SENTINEL`'s default (R9). -/
def formatSentinel : Ts := 0x0000#16

/-- `SAMPLE_IR`: the sentinel is tried first (R106). -/
def decodeSampleIr (sentinel w : Ts) : Instr :=
  if w = sentinel then .sampleIrSent else .sampleIrEdge w

/-- `SAMPLE_RF`: the sentinel is tried first, whatever the polarity bit (R106, R107). -/
def decodeSampleRf (sentinel : Ts) (w : Slot) : Instr :=
  if w.extractLsb' 0 16 = sentinel then .sampleRfSent (w.getLsbD 16)
  else if w.getLsbD 16 then .sampleRfRise (w.extractLsb' 0 16)
  else .sampleRfFall (w.extractLsb' 0 16)

/-- The classification of the word a slot holds, by the instance's variant (R106); the sentinel is the instance's
`SENTINEL` (R9). -/
def decodeSample (p : Params) (w : Slot) : Instr :=
  match p.variant with
  | .enc => .sampleEncSnap (w.extractLsb' 0 8)
  | .ir => decodeSampleIr p.sentinel (w.extractLsb' 0 16)
  | .rf => decodeSampleRf p.sentinel w

/-- A reader of `out`: the event kinds of R109; a reserved code, or a payload bit outside the kind's range, is refused
(R110). -/
def decodeEvent (w : EventWord) : Decoded :=
  match (w.extractLsb' 32 4).toNat with
  | 1 => if w.extractLsb' 0 32 = 0#32 then .ok .eventButtonPressed else .error (.payloadRange "EVENT.BUTTON_PRESSED")
  | 2 => if w.extractLsb' 0 32 = 0#32 then .ok .eventButtonReleased else .error (.payloadRange "EVENT.BUTTON_RELEASED")
  | 3 => if w.extractLsb' 8 24 = 0#24 then .ok (.eventRotCw (w.extractLsb' 0 8)) else .error (.payloadRange "EVENT.ROT_CW")
  | 4 => if w.extractLsb' 8 24 = 0#24 then .ok (.eventRotCcw (w.extractLsb' 0 8)) else .error (.payloadRange "EVENT.ROT_CCW")
  | 5 => .ok (.eventPulse (w.extractLsb' 0 32))
  | 6 => if w.extractLsb' 0 32 = 0#32 then .ok .eventGap else .error (.payloadRange "EVENT.GAP")
  | 7 => if w.extractLsb' 0 32 = 0#32 then .ok .eventAnomaly else .error (.payloadRange "EVENT.ANOMALY")
  | 8 => if w.extractLsb' 24 8 = 0#8 then .ok (.eventFrame (w.extractLsb' 0 24)) else .error (.payloadRange "EVENT.FRAME")
  | code => .error (.reservedKind code)

/-- The decoder: a word with its format to the instruction it is, or the name of why it is none. -/
def decode (c : Coded) : Decoded :=
  match c with
  | .sampleEnc w => .ok (.sampleEncSnap w)
  | .sampleIr w => .ok (decodeSampleIr formatSentinel w)
  | .sampleRf w => .ok (decodeSampleRf formatSentinel w)
  | .event w => decodeEvent w
  | .stim w => decodeStim w

/-- A word of the opcode table by its width in whole bytes: 8 is `SAMPLE_ENC`, 16 `SAMPLE_IR`, 24 `SAMPLE_RF` (17 bits),
32 `STIM`, 40 `EVENT` (36 bits); the exact widths 17 and 36 are taken too (R100; log entry 18). A number too wide for
the format is none. -/
def codedOfTable (nbits w : Nat) : Option Coded :=
  match nbits with
  | 8 => if w < 2 ^ 8 then some (.sampleEnc (BitVec.ofNat 8 w)) else none
  | 16 => if w < 2 ^ 16 then some (.sampleIr (BitVec.ofNat 16 w)) else none
  | 17 => if w < 2 ^ 17 then some (.sampleRf (BitVec.ofNat 17 w)) else none
  | 24 => if w < 2 ^ 17 then some (.sampleRf (BitVec.ofNat 17 w)) else none
  | 32 => if w < 2 ^ 32 then some (.stim (BitVec.ofNat 32 w)) else none
  | 36 => if w < 2 ^ 36 then some (.event (BitVec.ofNat 36 w)) else none
  | 40 => if w < 2 ^ 36 then some (.event (BitVec.ofNat 36 w)) else none
  | _ => none

/-- The instruction the decoder reads from a word of the opcode table, numbered as the table numbers it. -/
def decodeTableWord (nbits w : Nat) : Option Instr :=
  match codedOfTable nbits w with
  | none => none
  | some c =>
    match decode c with
    | .ok i => some i
    | .error _ => none

/-- The encoder, from the tables of R101 to R103, R109 and R113. -/
def encode (i : Instr) : Coded :=
  match i with
  | .pin v => .stim (stimWord 0x1#4 v)
  | .pstep lvl tick => .stim (stimWord 0x2#4 (0#6 ++ (BitVec.ofBool tick ++ BitVec.ofBool lvl)))
  | .sync => .stim (stimWord 0x3#4 0#8)
  | .cstep => .stim (stimWord 0x4#4 0#8)
  | .reset init => .stim (stimWord 0x5#4 init)
  | .rfen v => .stim (stimWord 0x6#4 (0#7 ++ BitVec.ofBool v))
  | .tmo => .stim (stimWord 0x7#4 0#8)
  | .sampleEncSnap snap => .sampleEnc snap
  | .sampleIrSent => .sampleIr 0#16
  | .sampleIrEdge ts => .sampleIr ts
  | .sampleRfSent pol => .sampleRf (rfWord pol 0#16)
  | .sampleRfRise ts => .sampleRf (rfWord true ts)
  | .sampleRfFall ts => .sampleRf (rfWord false ts)
  | .eventButtonPressed => .event (eventWord .buttonPressed 0#32)
  | .eventButtonReleased => .event (eventWord .buttonReleased 0#32)
  | .eventRotCw count => .event (eventWord .rotCw (count.setWidth 32))
  | .eventRotCcw count => .event (eventWord .rotCcw (count.setWidth 32))
  | .eventPulse duration => .event (eventWord .pulse duration)
  | .eventGap => .event (eventWord .gap 0#32)
  | .eventAnomaly => .event (eventWord .anomaly 0#32)
  | .eventFrame value => .event (eventWord .frame (value.setWidth 32))

end Sys2Proof
end

