-- ==== Sys2Proof/Machine/State.lean ====
section
/-!
DEFINITION. The state of one `RFS-CORE` instance as plain data (10_state.md R30 to R59), its reset (R58), and why a
step can stop. Field names are the spec's register names in lowerCamelCase.
-/
namespace Sys2Proof.Machine

/-- The FIFO memory (R33, R70): pairs of a slot index and the slot's word, for the slots written so far. The spec's
smallest unit is one slot (R72, R73), so a cell is a slot, not a byte (log entry 5). An unlisted slot has no value of its
own: reading it draws a free value (log entry 6). -/
abbrev Memory := List (Nat × Slot)

/-- One pending move of the run. The host chooses which agent moves next and with what inputs (R257). -/
inductive Move where
  /-- A stimulus word of the trace (R112). -/
  | stim (w : StimWord)
  /-- An event word put to the event output directly. The MODEL'S OWN (log entry 3): no trace of the spec holds one. It
  allows more behaviours than the hardware has. Safe. -/
  | event (w : EventWord)
deriving DecidableEq, Repr

/-- No step faults (60_exceptions.md R270): there is no fault to name. -/
inductive Fault where
deriving DecidableEq, Repr

/-- Why the model has no step (60_exceptions.md R271 rows 11 and 12: a model refusal). -/
inductive Refusal where
  /-- Raised by a refused arm of Dispatch.lean only; no arm raises it now. Safe. -/
  | notModelled (mnemonic : String)
  /-- Raised by `step` on a word the trace decoder refuses (R110, R114). Safe: the spec has no step for it. -/
  | illegalWord (e : DecodeError)
  /-- Raised by a meaning whose row does not list the instance's variant (R106, R109, R114). Safe: no step for it. -/
  | wrongVariant
  /-- Raised by RESET in IR and RF when `init` has a bit of 7:1 set (R114). Safe: no step for it. -/
  | resetInitReserved
  /-- Raised by `step` when no move is pending: a finite run ends at its last step (R262). Safe. -/
  | runEnded
deriving DecidableEq, Repr

/-- The state of one instance. -/
structure State where
  /-- The elaboration parameters (R9); no step writes them. -/
  params : Params
  /-- `mem[0..255]` (R33). -/
  mem : Memory
  /-- `wr_bin` (R34). -/
  wrBin : Byte
  /-- `wr_gray` (R35). -/
  wrGray : Byte
  /-- `rd_bin` (R36). -/
  rdBin : Byte
  /-- `rd_gray` (R37). -/
  rdGray : Byte
  /-- `wsync[1..SYNC_STAGES]`, stage 1 first (R38). -/
  wsync : List Byte
  /-- `pins_prev`, ENC (R39). -/
  pinsPrev : Byte
  /-- `tcnt`, IR and RF (R40). -/
  tcnt : Ts
  /-- `edge_sel`, IR and RF; true is rising (R41). -/
  edgeSel : Bool
  /-- `lvl_prev`, IR and RF (R42). -/
  lvlPrev : Bool
  /-- `pass_out`, present when `PASS_EN = 1` (R43). -/
  passOut : Bool
  /-- `pq_occ`, IR and RF: the samples the push skid holds, 0 or 1 with `PUSHQ_DEPTH = 1` (R59, R166). -/
  pqOcc : Nat
  /-- `button_state`, ENC (R45). -/
  buttonState : Bool
  /-- `rot_state`, ENC (R46). -/
  rotState : Byte
  /-- `rot_count`, ENC (R47). -/
  rotCount : Byte
  /-- `hist1`, IR, the most recent timestamp (R48). -/
  hist1 : Ts
  /-- `hist2`, IR, the one before (R48). -/
  hist2 : Ts
  /-- `sync_found`, RF; true is the capture phase (R49). -/
  syncFound : Bool
  /-- `idx`, RF, legal values 0 to 23 between steps (R50). -/
  idx : BitVec 5
  /-- `slots[0..23]`, RF (R51). -/
  slots : Vector Ts 24
  /-- `base`, RF (R52). -/
  base : Ts
  /-- `frame_prev`, RF (R53). -/
  framePrev : FrameValue
  /-- `frame_prev_valid`, RF (R53). -/
  framePrevValid : Bool
  /-- `rf_enable`, RF (R54). -/
  rfEnable : Bool
  /-- `out`, every event emitted since launch, oldest first (R55). -/
  out : List EventWord
  /-- `n_push`, ghost (R57). -/
  nPush : Nat
  /-- `n_pop`, ghost (R57). -/
  nPop : Nat
  /-- How many free values were drawn: the MODEL'S OWN field (log entry 7). -/
  draws : Nat
  /-- The pending moves of the run, next first: the MODEL'S OWN field (log entry 2). -/
  moves : List Move
deriving DecidableEq, Repr

/-- What a step answers. -/
abbrev Answer := Host.Outcome State Fault Refusal

/-- The launch state of an instance (R58, R261) with the reset argument `init` named and no move pending. `slots` has no
reset value in the spec; the zeros are DESIGN CHOICE (log entry 8). Unsafe. -/
def State.launch (p : Params) (init : Byte) : State :=
  { params := p
    mem := []
    wrBin := 0
    wrGray := 0
    rdBin := 0
    rdGray := 0
    wsync := List.replicate p.syncStages 0
    pinsPrev := init
    tcnt := 0
    edgeSel := p.edgeSelInit
    lvlPrev := init.getLsbD 0
    passOut := init.getLsbD 0 ^^ p.passInv
    pqOcc := 0
    buttonState := false
    rotState := 0
    rotCount := 0
    hist1 := 0
    hist2 := 0
    syncFound := false
    idx := 0
    slots := Vector.replicate 24 0
    base := 0
    framePrev := 0
    framePrevValid := false
    rfEnable := false
    out := []
    nPush := 0
    nPop := 0
    draws := 0
    moves := [] }

/-- The machine right after reset: the reset values of R58, with the parameters' defaults. The variant ENC,
`US_PER_TICK` 1 and the reset argument 0 are DESIGN CHOICE (log entries 1 and 9). Unsafe. -/
def State.reset : State := State.launch (Params.default .enc) 0#8

end Sys2Proof.Machine
end

