-- ==== Sys2Proof/Machine/Operands.lean ====
section
/-!
DEFINITION. The gray code (00_scope.md R13), the operand forms of 30_encoding.md (R104, R105) and 41_capture.md (R161),
and the arithmetic of the decoders (R206, R222, R228).
-/
namespace Sys2Proof.Machine

/-- The reflected binary code (R13). -/
def bin2gray (b : Byte) : Byte := b ^^^ (b >>> 1)

/-- The inverse of `bin2gray`: bit `i` is the XOR of the bits of `g` from 7 down to `i`, R13's recurrence unrolled. -/
def gray2bin (g : Byte) : Byte :=
  g ^^^ (g >>> 1) ^^^ (g >>> 2) ^^^ (g >>> 3) ^^^ (g >>> 4) ^^^ (g >>> 5) ^^^ (g >>> 6) ^^^ (g >>> 7)

/-- The cursor after `b`, modulo `DEPTH` (R10, R130, R136). -/
def cursorSucc (p : Params) (b : Byte) : Byte := (b + 1#8) &&& p.ptrMask

/-- The distance from cursor `b` on to cursor `a`, modulo `DEPTH` (R10, R135). -/
def cursorDist (p : Params) (a b : Byte) : Nat := ((a - b) &&& p.ptrMask).toNat

/-- The bits of a slot that exist: `DATA_W` is 8, 16 or 17 (R9). -/
def dataMask (v : Variant) : Slot :=
  match v with
  | .enc => 0x000FF#17
  | .ir => 0x0FFFF#17
  | .rf => 0x1FFFF#17

/-- A word cut to the slot's `DATA_W` bits (R9, R70). -/
def fitSlot (v : Variant) (w : Slot) : Slot := w &&& dataMask v

/-- The counter after `c`, modulo 2 to the power `TS_W` (R40, R156). -/
def countSucc (p : Params) (c : Ts) : Ts := (c + 1#16) &&& p.tsMask

/-- Timestamp assembly: the counter value, except that 0 is recorded as `REMAP` (0xFFFF) (R9, R104, R160). A `REMAP` wider
than `TS_W` bits is recorded uncut: DESIGN CHOICE (log entry 24). Unsafe for an instance with such values. -/
def stamp (p : Params) (c : Ts) : Ts := if c = 0#16 then p.remap else c

/-- `edge_sample(lvl, ts)`: the timestamp in IR, with the polarity in bit 16 in RF (R155, R161). -/
def edgeSample (v : Variant) (lvl : Bool) (ts : Ts) : Slot :=
  match v with
  | .rf => rfWord lvl ts
  | .ir => ts.setWidth 17
  | .enc => ts.setWidth 17

/-- `SENT`: the word with the timestamp `SENTINEL` and polarity 0 (R9, R102, R103, R155). A `SENTINEL` wider than `TS_W`
bits is pushed uncut: DESIGN CHOICE (log entry 24). Unsafe for an instance with such values. -/
def sentinelSample (p : Params) : Slot := rfWord false p.sentinel

/-- `pair = (s[ROT_P1_BIT], s[ROT_P0_BIT])`, bit 1 first (R105). -/
def snapPair (p : Params) (snap : Byte) : BitVec 2 :=
  BitVec.ofBool (snap.getLsbD p.rotP1Bit) ++ BitVec.ofBool (snap.getLsbD p.rotP0Bit)

/-- `btn = s[BTN_BIT]` (R105). -/
def snapBtn (p : Params) (snap : Byte) : Bool := snap.getLsbD p.btnBit

/-- `rot_state` with the pair shifted in; the old bits 7:6 are lost (R183). -/
def shiftPair (rot : Byte) (pair : BitVec 2) : Byte := (rot <<< 2) ||| pair.setWidth 8

/-- `scale(t) = (t * US_PER_TICK) mod 2^32` (R200, R206). -/
def scale (p : Params) (t : Nat) : BitVec 32 := BitVec.ofNat 32 (t * p.usPerTick.toNat)

/-- The ticks of the plain path (R204). -/
def plainTicks (start cur : Ts) : Nat := cur.toNat - start.toNat

/-- The ticks of the bridged path: the start is the sample before the sentinel (R202). With R9's `WRAP_SPAN` the end is
never before the start (R208). Where another `WRAP_SPAN` puts it before, no rule states the result, and it is a free
value: DESIGN CHOICE (log entry 22). Safe. -/
def bridgedTicks (p : Params) (start cur : Ts) : Nat :=
  if start.toNat ≤ cur.toNat + p.wrapSpan then cur.toNat + p.wrapSpan - start.toNat
  else Config.unstatedTicks p.wrapSpan start cur

/-- `dur = (ts - base) mod 2^16`, the 16 being `TS_W` (R222). -/
def rfDuration (p : Params) (base ts : Ts) : Ts := (ts - base) &&& p.tsMask

/-- `b_i`: the high time of slot `i` is strictly over `BIT_THRESHOLD` (R228). -/
def frameBit (p : Params) (slots : Vector Ts 24) (i : Nat) : Nat :=
  if p.bitThreshold < (slots.toList.getD i 0#16).toNat then 1 else 0

/-- The exponent of slot `i`: `FRAME_LEN` - 1 - i (23 - i) in `MSB_FIRST`, i in `LSB_FIRST` (R228). -/
def framePlace (p : Params) (i : Nat) : Nat :=
  match p.frameBitOrder with
  | .msbFirst => p.frameLen - 1 - i
  | .lsbFirst => i

/-- The frame value: the sum over the `FRAME_LEN` slots of `b_i` times its power of two (R228). -/
def reduceFrame (p : Params) (slots : Vector Ts 24) : FrameValue :=
  BitVec.ofNat 24 ((List.range p.frameLen).map fun i => frameBit p slots i * 2 ^ framePlace p i).sum

end Sys2Proof.Machine
end

