-- ==== Sys2Proof/Machine/Flags.lean ====
section
/-!
DEFINITION. The flags and status outputs (10_state.md R56, 40_fifo.md R134, R135, 45_control.md R260), the overrun
condition (20_memory.md R81), and the conditions one producer step tests (41_capture.md). Reading one has no side
effect (R75).
-/
namespace Sys2Proof.Machine

/-- `wsync[SYNC_STAGES]`, the last stage (R38). A state with no stage, which no launch makes, reads 0 (log entry 19). -/
def lastStage (s : State) : Byte := s.wsync.getLastD 0#8

/-- `wr_c`, the consumer's view of the write cursor (R38, R134). -/
def wrC (s : State) : Byte := gray2bin (lastStage s)

/-- `pending = (rd_gray != wsync[SYNC_STAGES])` (R135). -/
def pending (s : State) : Bool := s.rdGray != lastStage s

/-- `count_c = (wr_c - rd_bin) mod 256`, the modulus being `DEPTH` (R10, R135). -/
def countC (s : State) : Nat := cursorDist s.params (wrC s) s.rdBin

/-- `empty`, the raw read port's flag (R138). -/
def fifoEmpty (s : State) : Bool := !pending s

/-- The FIFO is in overrun (R81); no hardware register shows it. -/
def overrun (s : State) : Bool := s.params.depth ≤ s.nPush - s.nPop

/-- The pop would read the slot the producer writes next (R82, R136). -/
def collision (s : State) : Bool := s.rdBin == s.wrBin

/-- The output port `rf_sync_found`, RF only (R49, R260). -/
def portRfSyncFound (s : State) : Option Bool :=
  if s.params.variant = .rf then some s.syncFound else none

/-- The output port `pass_out`, present when `PASS_EN = 1` in a variant with an edge detector (R43, R260). -/
def portPassOut (s : State) : Option Bool :=
  if s.params.passEn && s.params.variant != .enc then some s.passOut else none

/-- A monitored line differs from the last value examined (R152). -/
def pinChanged (v : Byte) (s : State) : Bool := (v ^^^ s.pinsPrev) &&& s.params.monMask != 0#8

/-- An edge: the level differs from the last one examined (R158). -/
def edgeSeen (lvl : Bool) (s : State) : Bool := lvl != s.lvlPrev

/-- A qualifying edge: its polarity is the one `edge_sel` selects (R159). -/
def edgeCaptured (lvl : Bool) (s : State) : Bool := edgeSeen lvl s && lvl == s.edgeSel

/-- The increment takes the counter from its last value, 0xFFFF with `TS_W = 16`, to 0x0000 (R157). -/
def counterWraps (tick : Bool) (s : State) : Bool := tick && s.tcnt == s.params.tsMask

end Sys2Proof.Machine
end

