-- ==== Sys2Proof/Machine/Ops.lean ====
section
/-!
DEFINITION. The named operations over memory and registers: the FIFO RAM, `draw()`, `push`, `SYNC`, `pop`, the raw
ports, `emit` (00_scope.md R12, 20_memory.md R70, 40_fifo.md R130 to R138, 30_encoding.md R108). The block has no exception
to take and none to return from (60_exceptions.md R270, R276), so no such operation stands here.
-/
namespace Sys2Proof.Machine

/-- The listed indices rise strictly from `lo` on and are slot indices 0 to 255 (R71). -/
def risesFrom (lo : Nat) : Memory → Bool
  | [] => true
  | (k, _) :: m => decide (lo ≤ k) && decide (k < Config.slotIndices) && risesFrom (k + 1) m

/-- The canonical form of the memory: strictly rising slot indices, each below 256. An unlisted slot has no value, so
no entry can equal what it reads as. -/
def Memory.wf (m : Memory) : Bool := risesFrom 0 m

/-- What slot `k` holds; none where nothing was written (R33, R70). -/
def memRead (m : Memory) (k : Nat) : Option Slot :=
  match m with
  | [] => none
  | (j, w) :: rest => if j = k then some w else memRead rest k

/-- `MemWrite(k, 1, w)`: slot `k` becomes `w`, in the canonical form (R70, R75). -/
def memWrite (m : Memory) (k : Nat) (w : Slot) : Memory :=
  match m with
  | [] => [(k, w)]
  | (j, u) :: rest =>
    if k < j then (k, w) :: (j, u) :: rest
    else if k = j then (k, w) :: rest
    else (j, u) :: memWrite rest k w

/-- `draw()` of `DATA_W` bits: the next free value (R12). -/
def draw (s : State) : Slot × State :=
  (fitSlot s.params.variant (Config.freeValue s.draws), { s with draws := s.draws + 1 })

/-- `push(v)`: the slot first, then the cursor, then the published gray copy, then the ghost counter (R79, R130). -/
def push (w : Slot) (s : State) : State :=
  { s with
    mem := memWrite s.mem s.wrBin.toNat (fitSlot s.params.variant w)
    wrBin := cursorSucc s.params s.wrBin
    wrGray := bin2gray (cursorSucc s.params s.wrBin)
    nPush := s.nPush + 1 }

/-- The samples of one producer step pushed in the order they were generated (R130, R155). -/
def pushAll (ws : List Slot) (s : State) : State := ws.foldl (fun t w => push w t) s

/-- The synchroniser chain moves one stage on; stage 1 samples `wr_gray` (R133). -/
def syncShift (s : State) : State := { s with wsync := (s.wrGray :: s.wsync).dropLast }

/-- `MemRead(rd_bin, 1)`, or a draw on the collision of R82; a slot that nothing has written is a draw too
(93_implementation_defined.md U4; log entry 6). -/
def readSlot (s : State) : Slot × State :=
  if collision s then draw s
  else
    match memRead s.mem s.rdBin.toNat with
    | some w => (w, s)
    | none => draw s

/-- The read cursor, its gray copy and the ghost counter advance (R136). -/
def advanceRead (s : State) : State :=
  { s with
    rdBin := cursorSucc s.params s.rdBin
    rdGray := bin2gray (cursorSucc s.params s.rdBin)
    nPop := s.nPop + 1 }

/-- `pop()`, called only with `pending = 1`: the sample and the state after (R136). -/
def pop (s : State) : Slot × State := ((readSlot s).1, advanceRead (readSlot s).2)

/-- The raw write port: a push at a `clk_p` edge with `wr_en = 1` (R132). -/
def writePort (wrEn : Bool) (wrData : Slot) (s : State) : State := if wrEn then push wrData s else s

/-- The raw read port: with `rd_en = 1` a pop, or, when empty, no cursor change and `rd_data` a draw (R137, R138). The
rules do not say what `rd_data` carries when `rd_en = 0`: the model gives no value there and changes nothing, DESIGN CHOICE
(log entry 23). Safe. -/
def readPort (rdEn : Bool) (s : State) : Option Slot × State :=
  if rdEn then
    if fifoEmpty s then (some (draw s).1, (draw s).2) else (some (pop s).1, (pop s).2)
  else (none, s)

/-- `emit K(p)`: the event word is appended to `out` (R12, R55, R108). -/
def emit (k : EventKind) (payload : BitVec 32) (s : State) : State :=
  { s with out := s.out ++ [eventWord k payload] }

/-- A step that the spec gives only to the variants of its row: the model has none for another (R114). -/
def inVariant (listed : Bool) (t : State) : Answer :=
  if listed then .next t else .refused .wrongVariant

/-- The first variant for which the instruction is legal, the current one tried first. -/
def variantFor (i : Instr) (v : Variant) : Variant :=
  ([v, .enc, .ir, .rf].find? fun u => i.legalIn u).getD v

/-- The instance as one of the variant `v`; nothing changes when it is one already. -/
def selectVariant (v : Variant) (s : State) : State :=
  if s.params.variant = v then s
  else { s with params := { s.params with variant := v, passEn := passEnDefault v } }

/-- The FIFO holding exactly the word `w`, visible to the consumer: emptied at the read cursor, pushed and settled. It
places a sample where the next `CSTEP` pops it. -/
def holdSample (w : Slot) (s : State) : State :=
  let t := push w { s with wrBin := s.rdBin, wrGray := bin2gray s.rdBin, rdGray := bin2gray s.rdBin, nPush := s.nPop }
  { t with wsync := List.replicate t.params.syncStages t.wrGray }

end Sys2Proof.Machine
end

