-- ==== Sys2Proof/Machine/Consumer.lean ====
section
/-!
DEFINITION. The consumer domain: the synchroniser step (40_fifo.md R133), the three decoders on a popped sample
(42_decoder_enc.md R180, 43_decoder_ir.md R200, 44_decoder_rf.md R220), and `CSTEP` (45_control.md R253). A sample class
is what the decoder does with the popped word; the pop itself is `CSTEP`'s (log entry 4).
-/
namespace Sys2Proof.Machine

/-- The button edge classifier (R182). -/
def classifyButton (btn : Bool) (s : State) : State :=
  if btn = s.buttonState then s
  else
    let t := emit (if btn then .buttonPressed else .buttonReleased) 0#32 s
    { t with buttonState := btn }

/-- The rest check on the history just shifted (R184 to R187). -/
def restCheck (s : State) : State :=
  if s.rotState.extractLsb' 0 6 = s.params.patCcw then
    emit .rotCcw ((s.rotCount - s.params.rotStep).setWidth 32) { s with rotCount := s.rotCount - s.params.rotStep }
  else if s.rotState.extractLsb' 0 6 = s.params.patCw then
    emit .rotCw ((s.rotCount + s.params.rotStep).setWidth 32) { s with rotCount := s.rotCount + s.params.rotStep }
  else s

/-- The rotary decoder: shift a new pair in, and check the history when the pair is the detent (R183 to R188). -/
def rotaryDecode (pair : BitVec 2) (s : State) : State :=
  if pair = s.rotState.extractLsb' 0 2 then s
  else
    let t := { s with rotState := shiftPair s.rotState pair }
    if pair = s.params.rest then restCheck t else t

/-- `ENC_STEP` on the popped snapshot, the button concern first (R180, R181). -/
def encStep (snap : Byte) (s : State) : State :=
  rotaryDecode (snapPair s.params snap) (classifyButton (snapBtn s.params snap) s)

/-- The event of `IR_STEP` for a timestamp that is not `SENTINEL` (0), rows in order (R200, R202 to R205). -/
def irEvent (cur : Ts) (s : State) : EventKind × BitVec 32 :=
  if s.hist1 = s.params.sentinel ∧ s.hist2 = s.params.sentinel then (.gap, 0#32)
  else if s.hist1 = s.params.sentinel then (.pulse, scale s.params (bridgedTicks s.params s.hist2 cur))
  else if cur.toNat < s.hist1.toNat then (.anomaly, 0#32)
  else (.pulse, scale s.params (plainTicks s.hist1 cur))

/-- The history shift that ends every `IR` step (R207). -/
def shiftHistory (cur : Ts) (s : State) : State := { s with hist2 := s.hist1, hist1 := cur }

/-- `IR_STEP` on the popped sample (R200). -/
def irStep (cur : Ts) (s : State) : State :=
  shiftHistory cur (if cur = s.params.sentinel then s else emit (irEvent cur s).1 (irEvent cur s).2 s)

/-- Back to the sync search with no sample of a frame (R227, R255, R256). -/
def restartSearch (s : State) : State := { s with syncFound := false, idx := 0#5 }

/-- Frame completion: reduce, emit when the previous frame agrees, remember, return to the search (R227 to R230). -/
def completeFrame (s : State) : State :=
  let value := reduceFrame s.params s.slots
  let t := if s.framePrevValid ∧ value = s.framePrev then emit .frame (value.setWidth 32) s else s
  restartSearch { t with framePrev := value, framePrevValid := true }

/-- A rising edge in `SEARCH` (R223). -/
def searchRise (ts : Ts) (s : State) : State :=
  if s.params.syncThreshold < (rfDuration s.params s.base ts).toNat then { s with base := ts, syncFound := true, idx := 0#5 }
  else { s with base := ts }

/-- A rising edge in `CAPTURE` (R225). -/
def captureRise (ts : Ts) (s : State) : State := { s with base := ts }

/-- The slot write of a falling edge in `CAPTURE` (R226). An `idx` over 23, which no run reaches (R50), has no slot: the
write is dropped (log entry 12). -/
def fillSlot (ts : Ts) (s : State) : State :=
  { s with slots := s.slots.setIfInBounds s.idx.toNat (rfDuration s.params s.base ts), idx := s.idx + 1#5 }

/-- A falling edge in `CAPTURE` (R226, R227). -/
def captureFall (ts : Ts) (s : State) : State :=
  let t := fillSlot ts s
  if t.idx.toNat = s.params.frameLen then completeFrame t else t

/-- `RF_STEP` on the popped sample (R220): discarded while disabled, sentinels ignored (R221). -/
def rfStep (pol : Bool) (ts : Ts) (s : State) : State :=
  if s.rfEnable then
    if ts = s.params.sentinel then s
    else if s.syncFound then
      if pol then captureRise ts s else captureFall ts s
    else
      if pol then searchRise ts s else s
  else s

/-- The variant's decoder on the popped word (R106, R253). -/
def decoderStep (w : Slot) (s : State) : State :=
  match s.params.variant with
  | .enc => encStep (w.extractLsb' 0 8) s
  | .ir => irStep (w.extractLsb' 0 16) s
  | .rf => rfStep (w.getLsbD 16) (w.extractLsb' 0 16) s

/-- `SYNC` (R252). -/
def execSync (s : State) : Answer := .next (syncShift s)

/-- `CSTEP`: pop and decode when `pending = 1`, else an idle cycle (R253). -/
def execCstep (s : State) : Answer :=
  .next (if pending s then decoderStep (pop s).1 (pop s).2 else s)

/-- `SAMPLE_ENC.SNAP` (R106, R180). -/
def execSampleEncSnap (snap : Byte) (s : State) : Answer :=
  inVariant (s.params.variant == .enc) (encStep snap s)

/-- `SAMPLE_IR.SENT` (R106, R201). -/
def execSampleIrSent (s : State) : Answer :=
  inVariant (s.params.variant == .ir) (irStep s.params.sentinel s)

/-- `SAMPLE_IR.EDGE` (R106, R200). -/
def execSampleIrEdge (ts : Ts) (s : State) : Answer := inVariant (s.params.variant == .ir) (irStep ts s)

/-- `SAMPLE_RF.SENT` (R106, R107, R221). -/
def execSampleRfSent (pol : Bool) (s : State) : Answer :=
  inVariant (s.params.variant == .rf) (rfStep pol s.params.sentinel s)

/-- `SAMPLE_RF.RISE` (R106, R223, R225). -/
def execSampleRfRise (ts : Ts) (s : State) : Answer := inVariant (s.params.variant == .rf) (rfStep true ts s)

/-- `SAMPLE_RF.FALL` (R106, R224, R226, R227). -/
def execSampleRfFall (ts : Ts) (s : State) : Answer := inVariant (s.params.variant == .rf) (rfStep false ts s)

end Sys2Proof.Machine
end

