-- ==== Sys2Proof/Machine/Events.lean ====
section
/-!
DEFINITION. The event words of 30_encoding.md R109: what `emit K(p)` does with each kind (R108).
-/
namespace Sys2Proof.Machine

/-- `EVENT.BUTTON_PRESSED` (R182). -/
def execEventButtonPressed (s : State) : Answer :=
  inVariant (s.params.variant == .enc) (emit .buttonPressed 0#32 s)

/-- `EVENT.BUTTON_RELEASED` (R182). -/
def execEventButtonReleased (s : State) : Answer :=
  inVariant (s.params.variant == .enc) (emit .buttonReleased 0#32 s)

/-- `EVENT.ROT_CW` (R185). -/
def execEventRotCw (count : Byte) (s : State) : Answer :=
  inVariant (s.params.variant == .enc) (emit .rotCw (count.setWidth 32) s)

/-- `EVENT.ROT_CCW` (R184). -/
def execEventRotCcw (count : Byte) (s : State) : Answer :=
  inVariant (s.params.variant == .enc) (emit .rotCcw (count.setWidth 32) s)

/-- `EVENT.PULSE` (R202, R204). -/
def execEventPulse (duration : BitVec 32) (s : State) : Answer :=
  inVariant (s.params.variant == .ir) (emit .pulse duration s)

/-- `EVENT.GAP` (R203). -/
def execEventGap (s : State) : Answer := inVariant (s.params.variant == .ir) (emit .gap 0#32 s)

/-- `EVENT.ANOMALY` (R205). -/
def execEventAnomaly (s : State) : Answer := inVariant (s.params.variant == .ir) (emit .anomaly 0#32 s)

/-- `EVENT.FRAME` (R229). -/
def execEventFrame (value : FrameValue) (s : State) : Answer :=
  inVariant (s.params.variant == .rf) (emit .frame (value.setWidth 32) s)

end Sys2Proof.Machine
end

