-- ==== Sys2Proof/Machine/HostControl.lean ====
section
/-!
DEFINITION. The host control steps of 45_control.md: `RESET` (R254), `RFEN` (R255), `TMO` (R256).
-/
namespace Sys2Proof.Machine

/-- The FIFO registers and ghost counters at their reset values; the memory keeps its contents (R58, R254). -/
def resetFifo (s : State) : State :=
  { s with
    wrBin := 0#8
    wrGray := 0#8
    rdBin := 0#8
    rdGray := 0#8
    wsync := List.replicate s.params.syncStages 0#8
    nPush := 0
    nPop := 0 }

/-- The registers of ENC at their reset values (R58). -/
def resetEnc (init : Byte) (s : State) : State :=
  { s with pinsPrev := init, buttonState := false, rotState := 0#8, rotCount := 0#8 }

/-- The capture registers of IR and RF at their reset values (R58, R254). -/
def resetTimestamper (lvl : Bool) (s : State) : State :=
  { s with
    tcnt := 0#16
    edgeSel := s.params.edgeSelInit
    lvlPrev := lvl
    passOut := lvl ^^ s.params.passInv
    pqOcc := 0 }

/-- The decoder registers of IR at their reset values (R58). -/
def resetIr (s : State) : State := { s with hist1 := 0#16, hist2 := 0#16 }

/-- The decoder registers of RF at their reset values; `slots` keep their contents (R58, R254). -/
def resetRf (s : State) : State :=
  { s with
    syncFound := false
    idx := 0#5
    base := 0#16
    framePrev := 0#24
    framePrevValid := false
    rfEnable := false }

/-- `RESET init`: the reset value of every register the variant has (R58, R254, R302; log entry 11). -/
def resetStep (init : Byte) (s : State) : State :=
  match s.params.variant with
  | .enc => resetEnc init (resetFifo s)
  | .ir => resetIr (resetTimestamper (init.getLsbD 0) (resetFifo s))
  | .rf => resetRf (resetTimestamper (init.getLsbD 0) (resetFifo s))

/-- `RFEN v`: a change from 0 to 1 re-arms the sync search (R231, R255). -/
def rfenStep (v : Bool) (s : State) : State :=
  let t := if s.rfEnable = false ∧ v = true then restartSearch s else s
  { t with rfEnable := v }

/-- `TMO`: the frame being captured is abandoned (R232, R256). -/
def tmoStep (s : State) : State := if s.syncFound then restartSearch s else s

/-- `RESET init` (R254); in IR and RF an `init` with a bit of 7:1 set is refused (R114). -/
def execReset (init : Byte) (s : State) : Answer :=
  if initLegal s.params.variant init then .next (resetStep init s) else .refused .resetInitReserved

/-- `RFEN v` (R255). -/
def execRfen (v : Bool) (s : State) : Answer := inVariant (s.params.variant == .rf) (rfenStep v s)

/-- `TMO` (R256). -/
def execTmo (s : State) : Answer := inVariant (s.params.variant == .rf) (tmoStep s)

end Sys2Proof.Machine
end

