-- ==== Sys2Proof/Machine/Producer.lean ====
section
/-!
DEFINITION. The producer steps: `PIN` (41_capture.md R152) and `PSTEP` (R155 to R166).
-/
namespace Sys2Proof.Machine

/-- The snapshot a `PIN` step pushes: all eight lines, when a monitored one changed (R152). -/
def pinSamples (v : Byte) (s : State) : List Slot := if pinChanged v s then [v.setWidth 17] else []

/-- `PIN v` in ENC (R152). -/
def pinStep (v : Byte) (s : State) : State := { pushAll (pinSamples v s) s with pinsPrev := v }

/-- The samples a `PSTEP` generates, the edge before the sentinel (R155, R157, R160, R164). -/
def generated (lvl tick : Bool) (s : State) : List Slot :=
  (if edgeCaptured lvl s then [edgeSample s.params.variant lvl (stamp s.params s.tcnt)] else []) ++
    (if counterWraps tick s then [sentinelSample s.params] else [])

/-- The samples a step can take: one leaves for the FIFO in its cycle, and the rest must find room in the skid (R166). -/
def skidRoom (s : State) : Nat := s.params.pushqDepth + 1 - s.pqOcc

/-- The samples that survive the skid: with the skid full a second sample, the sentinel, is dropped (R155, R166). -/
def survivors (lvl tick : Bool) (s : State) : List Slot := (generated lvl tick s).take (skidRoom s)

/-- `pq_occ` after the step: one sample leaves per cycle, if there is one, and the others are held (R155, R166). -/
def skidAfter (lvl tick : Bool) (s : State) : Nat := s.pqOcc + (survivors lvl tick s).length - 1

/-- The edge detector, the polarity toggle and the pass-through output (R155, R158, R162, R165). -/
def detectEdge (lvl : Bool) (s : State) : State :=
  { s with
    edgeSel := if edgeCaptured lvl s then !s.edgeSel else s.edgeSel
    passOut := if edgeCaptured lvl s && s.params.passEn then lvl ^^ s.params.passInv else s.passOut
    lvlPrev := lvl }

/-- The free-running counter (R155, R156). -/
def countTick (tick : Bool) (s : State) : State := if tick then { s with tcnt := countSucc s.params s.tcnt } else s

/-- `PSTEP lvl, tick` in IR and RF (R155). -/
def pstepStep (lvl tick : Bool) (s : State) : State :=
  { pushAll (survivors lvl tick s) (countTick tick (detectEdge lvl s)) with pqOcc := skidAfter lvl tick s }

/-- `PIN v` (R251). -/
def execPin (v : Byte) (s : State) : Answer := inVariant (s.params.variant == .enc) (pinStep v s)

/-- `PSTEP lvl, tick` (R251). -/
def execPstep (lvl tick : Bool) (s : State) : Answer :=
  inVariant (s.params.variant != .enc) (pstepStep lvl tick s)

end Sys2Proof.Machine
end

