-- ==== Sys2Proof/Machine/Dispatch.lean ====
section
/-! DEFINITION. One arm per row of spec/opcode_table.json. -/

namespace Sys2Proof.Machine

-- the meaning of each row, in the table's order
def exec (i : Instr) (s : State) : Host.Outcome State Fault Refusal :=
  match i with
  | .pin v => Sys2Proof.Machine.execPin v s
  | .pstep lvl tick => Sys2Proof.Machine.execPstep lvl tick s
  | .sync => Sys2Proof.Machine.execSync s
  | .cstep => Sys2Proof.Machine.execCstep s
  | .reset init => Sys2Proof.Machine.execReset init s
  | .rfen v => Sys2Proof.Machine.execRfen v s
  | .tmo => Sys2Proof.Machine.execTmo s
  | .sampleEncSnap snap => Sys2Proof.Machine.execSampleEncSnap snap s
  | .sampleIrSent => Sys2Proof.Machine.execSampleIrSent s
  | .sampleIrEdge ts => Sys2Proof.Machine.execSampleIrEdge ts s
  | .sampleRfSent pol => Sys2Proof.Machine.execSampleRfSent pol s
  | .sampleRfRise ts => Sys2Proof.Machine.execSampleRfRise ts s
  | .sampleRfFall ts => Sys2Proof.Machine.execSampleRfFall ts s
  | .eventButtonPressed => Sys2Proof.Machine.execEventButtonPressed s
  | .eventButtonReleased => Sys2Proof.Machine.execEventButtonReleased s
  | .eventRotCw count => Sys2Proof.Machine.execEventRotCw count s
  | .eventRotCcw count => Sys2Proof.Machine.execEventRotCcw count s
  | .eventPulse duration => Sys2Proof.Machine.execEventPulse duration s
  | .eventGap => Sys2Proof.Machine.execEventGap s
  | .eventAnomaly => Sys2Proof.Machine.execEventAnomaly s
  | .eventFrame value => Sys2Proof.Machine.execEventFrame value s

end Sys2Proof.Machine
end

