-- ==== Sys2Proof/Machine/Fetch.lean ====
section
/-!
DEFINITION. How a step gets its word: the next pending move decoded by the trace decoder (30_encoding.md R114), and how
a word is placed to be the next (log entries 2 to 4).
-/
namespace Sys2Proof.Machine

/-- The word of a move, with its format. -/
def moveWord (m : Move) : Coded :=
  match m with
  | .stim w => .stim w
  | .event w => .event w

/-- The trace decoder on a move (R110, R114). -/
def decodeMove (m : Move) : Decoded := decode (moveWord m)

/-- The stimulus word of `CSTEP` (R113). -/
def cstepWord : StimWord := stimWord 0x4#4 0#8

/-- The word placed so that the very next step runs it. A stimulus or event word becomes the next move. A sample word is
put into the FIFO where the next pop reads it, and `CSTEP` becomes the next move. The instance becomes one of a variant
for which the word is legal; a word no variant allows is placed all the same, and the step refuses it. -/
def placeWord (c : Coded) (s : State) : State :=
  let t :=
    match decode c with
    | .ok i => selectVariant (variantFor i s.params.variant) s
    | .error _ => s
  match c with
  | .stim w => { t with moves := .stim w :: t.moves }
  | .event w => { t with moves := .event w :: t.moves }
  | .sampleEnc w => { holdSample (w.setWidth 17) t with moves := .stim cstepWord :: t.moves }
  | .sampleIr w => { holdSample (w.setWidth 17) t with moves := .stim cstepWord :: t.moves }
  | .sampleRf w => { holdSample w t with moves := .stim cstepWord :: t.moves }

end Sys2Proof.Machine
end

