-- ==== Sys2Proof/Machine/Step.lean ====
section
/-!
DEFINITION. One step of the machine: one move of the run (45_control.md R250, R262).
-/
namespace Sys2Proof.Machine

/-- Take the next pending move, decode its word, and run it (R14, R250). With no move pending the run has ended (R262). -/
def step (s : State) : Host.Outcome State Fault Refusal :=
  match s.moves with
  | [] => .refused .runEnded
  | m :: rest =>
    match decodeMove m with
    | .ok i => exec i { s with moves := rest }
    | .error e => .refused (.illegalWord e)

/-- The state with the opcode-table word placed so that the next step runs it (log entry 2). A width that is no format's
changes nothing. -/
def State.withFetchWord (s : State) (nbits w : Nat) : State :=
  match codedOfTable nbits w with
  | some c => placeWord c s
  | none => s

end Sys2Proof.Machine
end

