-- ==== Sys2Proof/Machine/Trace.lean ====
section
/-!
DEFINITION. The written form of a trace: the assembler line of 30_encoding.md R115, the pseudo-instructions of R116, and
the moves they stand for.
-/
namespace Sys2Proof.Machine

/-- One line of a trace: nothing (blank or comment), a step, or a pseudo-instruction (R115, R116). -/
inductive TraceLine where
  | blank
  | step (i : Instr)
  | pseudo (p : Pseudo)
deriving DecidableEq, Repr

/-- The line up to its comment (R115). -/
def dropComment (cs : List Char) : List Char := cs.takeWhile fun c => c != ';'

/-- The words of a line, split at blanks and commas. -/
def lineWords : List Char → List (List Char)
  | [] => []
  | c :: cs =>
    if c = ' ' ∨ c = ',' ∨ c = '\t' then lineWords cs
    else
      match cs with
      | [] => [[c]]
      | d :: _ =>
        if d = ' ' ∨ d = ',' ∨ d = '\t' then [c] :: lineWords cs
        else
          match lineWords cs with
          | [] => [[c]]
          | w :: ws => (c :: w) :: ws

/-- The value of a digit in a radix up to 16. -/
def digitOf (radix : Nat) (c : Char) : Option Nat :=
  let v :=
    if '0' ≤ c ∧ c ≤ '9' then c.toNat - '0'.toNat
    else if 'a' ≤ c ∧ c ≤ 'f' then c.toNat - 'a'.toNat + 10
    else if 'A' ≤ c ∧ c ≤ 'F' then c.toNat - 'A'.toNat + 10
    else radix
  if v < radix then some v else none

/-- The digits read on from an accumulated value. -/
def digitsFrom (radix acc : Nat) : List Char → Option Nat
  | [] => some acc
  | c :: cs =>
    match digitOf radix c with
    | some d => digitsFrom radix (acc * radix + d) cs
    | none => none

/-- A literal: `0b` binary, `0x` hexadecimal (R11), otherwise decimal. -/
def literal (cs : List Char) : Option Nat :=
  match cs with
  | [] => none
  | '0' :: 'b' :: c :: rest => digitsFrom 2 0 (c :: rest)
  | '0' :: 'x' :: c :: rest => digitsFrom 16 0 (c :: rest)
  | c :: rest => digitsFrom 10 0 (c :: rest)

/-- A literal of one bit. -/
def bitLiteral (cs : List Char) : Option Bool :=
  match literal cs with
  | some 0 => some false
  | some 1 => some true
  | _ => none

/-- A literal of eight bits. -/
def byteLiteral (cs : List Char) : Option Byte :=
  match literal cs with
  | some n => if n < 256 then some (BitVec.ofNat 8 n) else none
  | none => none

/-- The step or pseudo-instruction of a line's words (R115, R116); none when it is no line of the syntax. -/
def parseWords (ws : List (List Char)) : Option TraceLine :=
  match ws with
  | [] => some .blank
  | [m] =>
    if m = "SYNC".toList then some (.step .sync)
    else if m = "CSTEP".toList then some (.step .cstep)
    else if m = "TMO".toList then some (.step .tmo)
    else if m = "SETTLE".toList then some (.pseudo .settle)
    else if m = "DRAIN".toList then some (.pseudo .drain)
    else none
  | [m, a] =>
    if m = "PIN".toList then (byteLiteral a).map fun v => .step (.pin v)
    else if m = "RESET".toList then (byteLiteral a).map fun v => .step (.reset v)
    else if m = "RFEN".toList then (bitLiteral a).map fun v => .step (.rfen v)
    else if m = "EDGE".toList then (bitLiteral a).map fun v => .pseudo (.edge v)
    else none
  | [m, a, b] =>
    if m = "PSTEP".toList then
      match bitLiteral a, bitLiteral b with
      | some lvl, some tick => some (.step (.pstep lvl tick))
      | _, _ => none
    else if m = "TICKS".toList then
      match literal a, bitLiteral b with
      | some n, some lvl => some (.pseudo (.ticks n lvl))
      | _, _ => none
    else none
  | _ => none

/-- One line of a trace (R115). -/
def parseLine (line : String) : Option TraceLine := parseWords (lineWords (dropComment line.toList))

/-- `SETTLE`: `SYNC_STAGES` copies of `SYNC` (R116). -/
def settleSteps (s : State) : List Instr := List.replicate s.params.syncStages .sync

/-- The samples the consumer can pop once the write cursor has settled: `(wr_bin - rd_bin) mod 256`, the modulus being
`DEPTH` (R10, R135). -/
def countSettled (s : State) : Nat := cursorDist s.params s.wrBin s.rdBin

/-- The expansion of a pseudo-instruction in the state it starts in (R116). `DRAIN` repeats `CSTEP` while `pending = 1`,
that is, as often as samples are to be popped after `SETTLE`. -/
def expand (p : Pseudo) (s : State) : List Instr :=
  match p with
  | .edge lvl => [.pstep lvl false]
  | .ticks n lvl => List.replicate n (.pstep lvl true)
  | .settle => settleSteps s
  | .drain => settleSteps s ++ List.replicate (countSettled s) .cstep

/-- The steps of one line (R115, R116). -/
def lineSteps (l : TraceLine) (s : State) : List Instr :=
  match l with
  | .blank => []
  | .step i => [i]
  | .pseudo p => expand p s

/-- The move that names a step: the step's stimulus or event word. A sample class is reached by a `CSTEP`, so it is the
move of none. -/
def moveOf (i : Instr) : Option Move :=
  match encode i with
  | .stim w => some (.stim w)
  | .event w => some (.event w)
  | .sampleEnc _ => none
  | .sampleIr _ => none
  | .sampleRf _ => none

/-- The state with the steps' moves pending before what was pending: how a trace is loaded (log entry 2). -/
def loadSteps (is : List Instr) (s : State) : State := { s with moves := is.filterMap moveOf ++ s.moves }

end Sys2Proof.Machine
end

