-- ==== Sys2Proof/Safety.lean ====
section
/-!
DEFINITION. The terms the claims use: runs of instructions, the invariant of the machine, the history of a run (what was
pushed, what was popped, what each synchroniser stage has seen), the two domains' shares of the state, and the table of
legal stimulus words.
-/
namespace Sys2Proof.Machine

/-- The instructions in order, stopping where one answers no next state. -/
def execAll (is : List Instr) (s : State) : Answer :=
  match is with
  | [] => .next s
  | i :: rest =>
    match exec i s with
    | .next t => execAll rest t
    | .fault r => .fault r
    | .refused r => .refused r

/-- Legal launch parameters: `SYNC_STAGES` and `OUT_Q_DEPTH` are at least 2 (R9); the cursors are 1 to 8 bits wide, a
frame has 1 to 24 slots, and timestamps have 1 to 16 bits, what the registers of R34 to R38, R50 to R53, R40 and R48 hold
(log entry 13). `SENTINEL` and `REMAP` are not bounded by `TS_W` (log entry 24). -/
abbrev ParamsLegal (p : Params) : Prop :=
  2 ≤ p.syncStages ∧ 2 ≤ p.outQDepth ∧ 1 ≤ p.ptrW ∧ p.ptrW ≤ 8 ∧ 1 ≤ p.frameLen ∧ p.frameLen ≤ 24 ∧
    1 ≤ p.tsW ∧ p.tsW ≤ 16

/-- The two gray registers are the codes of their cursors (R35, R37). -/
abbrev GrayCoherent (s : State) : Prop := s.wrGray = bin2gray s.wrBin ∧ s.rdGray = bin2gray s.rdBin

/-- There is one synchroniser value per stage (R38). -/
abbrev StagesMatch (s : State) : Prop := s.wsync.length = s.params.syncStages

/-- Both cursors are slot numbers below `DEPTH` (R10, R34, R36). -/
abbrev CursorsInRange (s : State) : Prop := s.wrBin.toNat < s.params.depth ∧ s.rdBin.toNat < s.params.depth

/-- The counter has `TS_W` bits (R9, R40). -/
abbrev CountInRange (s : State) : Prop := s.tcnt.toNat < 2 ^ s.params.tsW

/-- The push skid holds no more samples than it has entries (R59, R166). -/
abbrev SkidInRange (s : State) : Prop := s.pqOcc ≤ s.params.pushqDepth

/-- Every synchroniser stage holds the gray code of a slot number below `DEPTH` (R38). -/
abbrev StagesInRange (s : State) : Prop := ∀ g ∈ s.wsync, (gray2bin g).toNat < s.params.depth

/-- Every listed slot is one of the `DEPTH` slots, and its word has `DATA_W` bits (R33). -/
abbrev MemoryFits (s : State) : Prop := ∀ c ∈ s.mem, c.1 < s.params.depth ∧ fitSlot s.params.variant c.2 = c.2

/-- A word of `out` is one the block may emit: a kind of the variant, the payload in its range (R109, R110). -/
def eventLegal (v : Variant) (w : EventWord) : Bool :=
  match decodeEvent w with
  | .ok i => i.listedIn v
  | .error _ => false

/-- Every word of `out` is one the block may emit (R110). -/
abbrev OutLegal (s : State) : Prop := ∀ w ∈ s.out, eventLegal s.params.variant w = true

/-- The invariant of the machine: the parameters legal, the memory in its canonical form, within `DEPTH` and `DATA_W` wide,
the cursors, the counter and the skid in range, the gray registers coherent, one value per stage and in range, `idx` below
`FRAME_LEN` (R50), every event a legal one. -/
abbrev MachineInv (s : State) : Prop :=
  ParamsLegal s.params ∧ Memory.wf s.mem = true ∧ MemoryFits s ∧ CursorsInRange s ∧ GrayCoherent s ∧ StagesMatch s ∧
    StagesInRange s ∧ CountInRange s ∧ SkidInRange s ∧ s.idx.toNat < s.params.frameLen ∧ OutLegal s

/-- The history of a run since its last reset: the samples pushed and popped, in order, and the number of pushes each
synchroniser stage has seen (the `V` of R78 is the last stage's). -/
structure History where
  pushed : List Slot
  popped : List Slot
  seen : List Nat
deriving DecidableEq, Repr

/-- The history at reset. -/
def History.start (p : Params) : History := { pushed := [], popped := [], seen := List.replicate p.syncStages 0 }

/-- `V`, the number of pushes since reset that `wr_c` reflects (R78). -/
def History.view (h : History) : Nat := h.seen.getLastD 0

/-- The samples an instruction pushes. -/
def pushedBy (i : Instr) (s : State) : List Slot :=
  match i with
  | .pin v => (pinSamples v s).map (fitSlot s.params.variant)
  | .pstep lvl tick => (survivors lvl tick s).map (fitSlot s.params.variant)
  | .sync | .cstep | .reset _ | .rfen _ | .tmo => []
  | .sampleEncSnap _ | .sampleIrSent | .sampleIrEdge _ | .sampleRfSent _ | .sampleRfRise _ | .sampleRfFall _ => []
  | .eventButtonPressed | .eventButtonReleased | .eventRotCw _ | .eventRotCcw _ => []
  | .eventPulse _ | .eventGap | .eventAnomaly | .eventFrame _ => []

/-- The samples an instruction pops. -/
def poppedBy (i : Instr) (s : State) : List Slot :=
  match i with
  | .cstep => if pending s then [(pop s).1] else []
  | .pin _ | .pstep _ _ | .sync | .reset _ | .rfen _ | .tmo => []
  | .sampleEncSnap _ | .sampleIrSent | .sampleIrEdge _ | .sampleRfSent _ | .sampleRfRise _ | .sampleRfFall _ => []
  | .eventButtonPressed | .eventButtonReleased | .eventRotCw _ | .eventRotCcw _ => []
  | .eventPulse _ | .eventGap | .eventAnomaly | .eventFrame _ => []

/-- The history after an instruction. -/
def History.after (h : History) (i : Instr) (s : State) : History :=
  match i with
  | .reset _ => History.start s.params
  | .sync => { h with seen := (s.nPush :: h.seen).dropLast }
  | .cstep => { h with popped := h.popped ++ poppedBy i s }
  | .pin _ | .pstep _ _ => { h with pushed := h.pushed ++ pushedBy i s }
  | .rfen _ | .tmo => h
  | .sampleEncSnap _ | .sampleIrSent | .sampleIrEdge _ | .sampleRfSent _ | .sampleRfRise _ | .sampleRfFall _ => h
  | .eventButtonPressed | .eventButtonReleased | .eventRotCw _ | .eventRotCcw _ => h
  | .eventPulse _ | .eventGap | .eventAnomaly | .eventFrame _ => h

/-- The cursor after `n` pushes or pops: `n` modulo `DEPTH`. -/
def cursorOf (p : Params) (n : Nat) : Byte := BitVec.ofNat 8 (n % p.depth)

/-- The gray code of the cursor after `n` pushes or pops. -/
def grayOf (p : Params) (n : Nat) : Byte := bin2gray (cursorOf p n)

/-- The FIFO state is the one the history explains, whatever the producer has done: the counters count it, the cursors
are the counters modulo `DEPTH`, each stage holds the gray code of a count that was reached, newer stages first, the
consumer has popped no more than it has seen, and the last `DEPTH` samples pushed stand in their slots (R57, R78, R79). -/
structure Tracks (s : State) (h : History) : Prop where
  params_legal : ParamsLegal s.params
  pushed_count : h.pushed.length = s.nPush
  popped_count : h.popped.length = s.nPop
  write_cursor : s.wrBin = cursorOf s.params s.nPush
  read_cursor : s.rdBin = cursorOf s.params s.nPop
  gray : GrayCoherent s
  stages : s.wsync = h.seen.map (grayOf s.params)
  stage_count : h.seen.length = s.params.syncStages
  seen_order : (s.nPush :: h.seen).Pairwise (fun a b => b ≤ a)
  popped_seen : s.nPop ≤ h.view
  window : ∀ k w, h.pushed[k]? = some w → s.nPush ≤ k + s.params.depth →
    memRead s.mem (k % s.params.depth) = some w

/-- The samples popped are the first ones pushed, in push order (R80, R140). -/
def InOrder (h : History) : Prop := h.popped = h.pushed.take h.popped.length

/-- The consumer is less than `DEPTH` (256) samples behind (R81, R139). -/
abbrev NoOverrun (s : State) : Prop := s.nPush < s.nPop + s.params.depth

/-- Producer-domain state agrees (R32, R33 to R35, R39 to R43, R59, and the push counter). -/
structure SameProducer (s t : State) : Prop where
  params : t.params = s.params
  mem : t.mem = s.mem
  wrBin : t.wrBin = s.wrBin
  wrGray : t.wrGray = s.wrGray
  pinsPrev : t.pinsPrev = s.pinsPrev
  tcnt : t.tcnt = s.tcnt
  edgeSel : t.edgeSel = s.edgeSel
  lvlPrev : t.lvlPrev = s.lvlPrev
  passOut : t.passOut = s.passOut
  pqOcc : t.pqOcc = s.pqOcc
  nPush : t.nPush = s.nPush

/-- Consumer-domain state agrees (R32, R36 to R38, R45 to R55, and the pop counter). -/
structure SameConsumer (s t : State) : Prop where
  params : t.params = s.params
  rdBin : t.rdBin = s.rdBin
  rdGray : t.rdGray = s.rdGray
  wsync : t.wsync = s.wsync
  buttonState : t.buttonState = s.buttonState
  rotState : t.rotState = s.rotState
  rotCount : t.rotCount = s.rotCount
  hist1 : t.hist1 = s.hist1
  hist2 : t.hist2 = s.hist2
  syncFound : t.syncFound = s.syncFound
  idx : t.idx = s.idx
  slots : t.slots = s.slots
  base : t.base = s.base
  framePrev : t.framePrev = s.framePrev
  framePrevValid : t.framePrevValid = s.framePrevValid
  rfEnable : t.rfEnable = s.rfEnable
  out : t.out = s.out
  nPop : t.nPop = s.nPop
  draws : t.draws = s.draws

/-- A producer step (R250). -/
def isProducerStep (i : Instr) : Bool :=
  match i with
  | .pin _ | .pstep _ _ => true
  | .sync | .cstep | .reset _ | .rfen _ | .tmo => false
  | .sampleEncSnap _ | .sampleIrSent | .sampleIrEdge _ | .sampleRfSent _ | .sampleRfRise _ | .sampleRfFall _ => false
  | .eventButtonPressed | .eventButtonReleased | .eventRotCw _ | .eventRotCcw _ => false
  | .eventPulse _ | .eventGap | .eventAnomaly | .eventFrame _ => false

/-- A reset of both domains (R254). -/
def isReset (i : Instr) : Bool :=
  match i with
  | .reset _ => true
  | .pin _ | .pstep _ _ | .sync | .cstep | .rfen _ | .tmo => false
  | .sampleEncSnap _ | .sampleIrSent | .sampleIrEdge _ | .sampleRfSent _ | .sampleRfRise _ | .sampleRfFall _ => false
  | .eventButtonPressed | .eventButtonReleased | .eventRotCw _ | .eventRotCcw _ => false
  | .eventPulse _ | .eventGap | .eventAnomaly | .eventFrame _ => false

/-- The instructions that can emit: a consumer step, the sample it decodes, and an event word itself. -/
def mayEmit (i : Instr) : Bool :=
  match i with
  | .pin _ | .pstep _ _ | .sync | .reset _ | .rfen _ | .tmo => false
  | .cstep => true
  | .sampleEncSnap _ | .sampleIrSent | .sampleIrEdge _ | .sampleRfSent _ | .sampleRfRise _ | .sampleRfFall _ => true
  | .eventButtonPressed | .eventButtonReleased | .eventRotCw _ | .eventRotCcw _ => true
  | .eventPulse _ | .eventGap | .eventAnomaly | .eventFrame _ => true

/-- One row of R113: match, mask and the variants, with the tighter mask of `RESET` in IR and RF (R114). -/
structure StimRow where
  pattern : StimWord
  mask : StimWord
  variants : List Variant
deriving DecidableEq, Repr

/-- The rows of R113 by match and mask. -/
def stimRows : List StimRow :=
  [ ⟨0x10000000#32, 0xFFFFFF00#32, [.enc]⟩,
    ⟨0x20000000#32, 0xFFFFFFFC#32, [.ir, .rf]⟩,
    ⟨0x30000000#32, 0xFFFFFFFF#32, [.enc, .ir, .rf]⟩,
    ⟨0x40000000#32, 0xFFFFFFFF#32, [.enc, .ir, .rf]⟩,
    ⟨0x50000000#32, 0xFFFFFF00#32, [.enc]⟩,
    ⟨0x50000000#32, 0xFFFFFFFE#32, [.ir, .rf]⟩,
    ⟨0x60000000#32, 0xFFFFFFFE#32, [.rf]⟩,
    ⟨0x70000000#32, 0xFFFFFFFF#32, [.rf]⟩ ]

/-- A stimulus word that is legal for the variant (R113, R114). -/
def stimLegal (v : Variant) (w : StimWord) : Bool :=
  stimRows.any fun r => w &&& r.mask == r.pattern && r.variants.contains v

/-- Pops while `pending = 1`, at most `fuel` times: the samples popped and the state after (the `DRAIN` of R116 without
its decoding). -/
def popWhile (fuel : Nat) (s : State) : List Slot × State :=
  match fuel with
  | 0 => ([], s)
  | n + 1 =>
    if pending s then ((pop s).1 :: (popWhile n (pop s).2).1, (popWhile n (pop s).2).2) else ([], s)

/-- `n` synchroniser steps. -/
def syncTimes (n : Nat) (s : State) : State :=
  match n with
  | 0 => s
  | k + 1 => syncTimes k (syncShift s)

/-- The word is a rising edge of RF: its timestamp is not `SENTINEL` and its polarity is 1 (R103, R106). -/
def isRise (p : Params) (w : Slot) : Bool := w.extractLsb' 0 16 != p.sentinel && w.getLsbD 16

/-- The word is a falling edge of RF: its timestamp is not `SENTINEL` and its polarity is 0 (R103, R106). -/
def isFall (p : Params) (w : Slot) : Bool := w.extractLsb' 0 16 != p.sentinel && !w.getLsbD 16

/-- The baseline after the samples: the timestamp of the last rising edge among them, or the one before (R52, R225). -/
def baseAfter (p : Params) (base : Ts) (ws : List Slot) : Ts :=
  match ws with
  | [] => base
  | w :: rest => baseAfter p (if isRise p w then w.extractLsb' 0 16 else base) rest

/-- The times of the falling edges among the samples, in order, each measured modulo 2^16 (2^`TS_W`) from the last rising
edge before it, or from the baseline before the samples (R222, R226). -/
def fallTimes (p : Params) (base : Ts) (ws : List Slot) : List Ts :=
  match ws with
  | [] => []
  | w :: rest =>
    if isFall p w then ((w.extractLsb' 0 16 - base) &&& p.tsMask) :: fallTimes p base rest
    else fallTimes p (if isRise p w then w.extractLsb' 0 16 else base) rest

end Sys2Proof.Machine
end

