-- ==== Sys2Proof/Certificates/Slice0/Obligations.lean ====
section
/-!
DEFINITION. The statements for the provers, each from numbered rules of spec/.
-/

open Sys2Proof Sys2Proof.Machine

/-- 30_encoding.md R101 to R113: decoding the word of a well-formed instruction gives it back, for every operand. -/
def Obligations.DecodeInvertsEncode : Prop :=
  ∀ i : Instr, i.wellFormed = true → decode (encode i) = .ok i

/-- 30_encoding.md R106, R109, R113, R114: every accepted word has one meaning, the word is that meaning's own, and
what is decoded is well-formed. Of event words it holds because the decoder refuses a payload bit outside the kind's
range, which is the model's choice (log entry 17: R110 says only that such words are never produced). -/
def Obligations.EncodeInvertsDecode : Prop :=
  ∀ (c : Coded) (i : Instr), decode c = .ok i → encode i = c ∧ i.wellFormed = true

/-- 30_encoding.md R114: a step on a stimulus word answers a next state exactly when the word is legal for the variant
by R113's match, mask and variants, and refuses every other word. -/
def Obligations.IllegalStimulusWordsAreRefused : Prop :=
  ∀ (s : State) (w : StimWord) (rest : List Move), s.moves = .stim w :: rest →
    (stimLegal s.params.variant w = true → ∃ t, step s = .next t) ∧
      (stimLegal s.params.variant w = false → ∃ r, step s = .refused r)

/-- 95_test_vectors.md sections 0, 2.2 (V-C-13) and 3: words of the spec and the instructions they stand for. That a
17-bit sample word and a 36-bit event word are read from 24 and 40 bits is the model's choice (log entry 18). -/
def Obligations.SpecWordsDecode : Prop :=
  decodeTableWord 32 0x10000083 = some (.pin 0x83#8) ∧
    decodeTableWord 32 0x20000002 = some (.pstep false true) ∧
    decodeTableWord 32 0x60000001 = some (.rfen true) ∧
    decodeTableWord 24 0x10064 = some (.sampleRfRise 100#16) ∧
    decodeTableWord 24 0x00096 = some (.sampleRfFall 150#16) ∧
    decodeTableWord 40 0x30000000C = some (.eventRotCw 12#8) ∧
    decodeTableWord 40 0x800A5C3F0 = some (.eventFrame 0xA5C3F0#24) ∧
    decodeTableWord 32 0x30000001 = none ∧
    decodeTableWord 32 0x80000000 = none

/-- 30_encoding.md R106, 00_scope.md R9: the class of the popped word, rows in order, by variant. The rows compare with
0x0000, the default of `SENTINEL`; that an instance with another `SENTINEL` compares with that is the model's choice
(log entry 21). -/
def Obligations.SampleWordsClassifyInRowOrder : Prop :=
  ∀ (p : Params) (w : Slot),
    (p.variant = .enc → decodeSample p w = .sampleEncSnap (w.extractLsb' 0 8)) ∧
      (p.variant = .ir →
        (w.extractLsb' 0 16 = p.sentinel → decodeSample p w = .sampleIrSent) ∧
          (w.extractLsb' 0 16 ≠ p.sentinel → decodeSample p w = .sampleIrEdge (w.extractLsb' 0 16))) ∧
      (p.variant = .rf →
        (w.extractLsb' 0 16 = p.sentinel → decodeSample p w = .sampleRfSent (w.getLsbD 16)) ∧
          (w.extractLsb' 0 16 ≠ p.sentinel → w.getLsbD 16 = true →
            decodeSample p w = .sampleRfRise (w.extractLsb' 0 16)) ∧
          (w.extractLsb' 0 16 ≠ p.sentinel → w.getLsbD 16 = false →
            decodeSample p w = .sampleRfFall (w.extractLsb' 0 16))) ∧
      (Params.default p.variant).sentinel = 0x0000#16

/-- 00_scope.md R14, 45_control.md R250, R262: a step runs the instruction the next move decodes to, with that move
taken; a word that decodes to none is refused by its name; with no move pending the run has ended (log entry 2). -/
def Obligations.StepRunsTheDecodedMove : Prop :=
  ∀ s : State,
    (∀ m rest i, s.moves = m :: rest → decodeMove m = .ok i → step s = exec i { s with moves := rest }) ∧
      (∀ m rest e, s.moves = m :: rest → decodeMove m = .error e → step s = .refused (.illegalWord e)) ∧
      (s.moves = [] → step s = .refused .runEnded)

/-- 45_control.md R253, 30_encoding.md R106: with `pending = 1` a consumer step pops one sample and does what the
sample's class does; with `pending = 0` it changes nothing. That the pop is `CSTEP`'s part, and a class's meaning
starts from the popped word, is the model's reading (log entry 4). -/
def Obligations.CstepPopsAndDecodesOrIdles : Prop :=
  ∀ s : State,
    (pending s = true →
        ∃ t, exec .cstep s = .next t ∧ exec (decodeSample s.params (pop s).1) (pop s).2 = .next t) ∧
      (pending s = false → exec .cstep s = .next s)

/-- 40_fifo.md R133: `SYNC` puts `wr_gray` into stage 1 and each stage into the next, all read at the start; nothing
else changes; `SYNC_STAGES` of them put `wr_gray` into every stage. -/
def Obligations.SyncShiftsTheStages : Prop :=
  ∀ s : State, StagesMatch s → ParamsLegal s.params →
    (∃ t, exec .sync s = .next t ∧ t.wsync[0]? = some s.wrGray ∧
        (∀ k, k + 1 < s.params.syncStages → t.wsync[k + 1]? = s.wsync[k]?) ∧
        t.wsync.length = s.params.syncStages ∧ t = { s with wsync := t.wsync }) ∧
      execAll (List.replicate s.params.syncStages .sync) s =
        .next { s with wsync := List.replicate s.params.syncStages s.wrGray }

/-- 00_scope.md R13: the inverse follows its recurrence and is the inverse, and successive cursor values, the last and
0 included, have codes that differ in exactly one bit. The last clause says so at every cursor width from 1 to 8, the
model's choice of the legal widths (log entry 13); R13 speaks of 8 bits. -/
def Obligations.GrayCodeStepsOneBit : Prop :=
  ∀ b : Byte,
    bin2gray b = b ^^^ (b >>> 1) ∧
      (gray2bin b).getLsbD 7 = b.getLsbD 7 ∧
      (∀ i : Fin 7, (gray2bin b).getLsbD i = ((gray2bin b).getLsbD (i + 1) ^^ b.getLsbD i)) ∧
      gray2bin (bin2gray b) = b ∧
      (∃ k : Fin 8, bin2gray b ^^^ bin2gray (b + 1#8) = 1#8 <<< k.val) ∧
      ∀ p : Params, 1 ≤ p.ptrW → p.ptrW ≤ 8 → b.toNat < p.depth →
        ∃ k : Fin 8, bin2gray b ^^^ bin2gray (cursorSucc p b) = 1#8 <<< k.val

/-- 40_fifo.md R130: a push writes the slot at `wr_bin` and no other, advances `wr_bin` modulo `DEPTH`, publishes the
gray code of the new cursor and counts; nothing else changes. Pushes happen only in producer steps, at most two in one,
in the order the capture unit generated the samples. R130 writes the modulus 256; that other values of `DEPTH` go from
2 to 256 is the model's choice (log entry 13). -/
def Obligations.PushWritesSlotThenPublishes : Prop :=
  ∀ s : State,
    (∀ w : Slot,
        memRead (push w s).mem s.wrBin.toNat = some (fitSlot s.params.variant w) ∧
          (∀ k, k ≠ s.wrBin.toNat → memRead (push w s).mem k = memRead s.mem k) ∧
          push w s =
            { s with
              mem := (push w s).mem
              wrBin := cursorSucc s.params s.wrBin
              wrGray := bin2gray (cursorSucc s.params s.wrBin)
              nPush := s.nPush + 1 }) ∧
      (s.params.ptrW ≤ 8 → (cursorSucc s.params s.wrBin).toNat = (s.wrBin.toNat + 1) % s.params.depth) ∧
      (∀ (i : Instr) (t : State), exec i s = .next t → isReset i = false →
        s.nPush ≤ t.nPush ∧ t.nPush ≤ s.nPush + 2 ∧ (isProducerStep i = false → t.nPush = s.nPush)) ∧
      (∀ (v : Byte) (t : State), exec (.pin v) s = .next t →
        let u := pushAll (pinSamples v s) s
        t.mem = u.mem ∧ t.wrBin = u.wrBin ∧ t.wrGray = u.wrGray ∧ t.nPush = u.nPush) ∧
      ∀ (lvl tick : Bool) (t : State), exec (.pstep lvl tick) s = .next t →
        ∃ ws : List Slot, ws.Sublist (generated lvl tick s) ∧
          let u := pushAll ws s
          t.mem = u.mem ∧ t.wrBin = u.wrBin ∧ t.wrGray = u.wrGray ∧ t.nPush = u.nPush

/-- 40_fifo.md R136: a pop returns the slot at `rd_bin`, or a value the model does not determine when `rd_bin = wr_bin`
(for every free value), and advances the read side, the cursor modulo `DEPTH`; nothing else changes but the count of
draws. Pops happen only in a consumer step with `pending = 1`, one in each. R136 writes the modulus 256; that other
values of `DEPTH` go from 2 to 256 is the model's choice (log entry 13). -/
def Obligations.PopReadsOrDrawsAndAdvances : Prop :=
  ∀ s : State,
    (∀ w, s.rdBin ≠ s.wrBin → memRead s.mem s.rdBin.toNat = some w →
        pop s =
          (w,
            { s with
              rdBin := cursorSucc s.params s.rdBin
              rdGray := bin2gray (cursorSucc s.params s.rdBin)
              nPop := s.nPop + 1 })) ∧
      (s.rdBin = s.wrBin →
        pop s =
          (fitSlot s.params.variant (Config.freeValue s.draws),
            { s with
              rdBin := cursorSucc s.params s.rdBin
              rdGray := bin2gray (cursorSucc s.params s.rdBin)
              nPop := s.nPop + 1
              draws := s.draws + 1 })) ∧
      (s.params.ptrW ≤ 8 → (cursorSucc s.params s.rdBin).toNat = (s.rdBin.toNat + 1) % s.params.depth) ∧
      ∀ (i : Instr) (t : State), exec i s = .next t → isReset i = false →
        t.nPop = s.nPop + (if i = .cstep ∧ pending s = true then 1 else 0)

/-- 40_fifo.md R134, R135: with coherent gray registers and the cursors in range, `pending` says that the read cursor
differs from the consumer's view of the write cursor, that is, that `count_c`, less than `DEPTH` (at most 255), is not
0. That the two agree is the spec's own inference ("because `bin2gray` is a bijection"). Other values of `DEPTH` than
256 are log entry 13. -/
def Obligations.PendingMeansTheCursorsDiffer : Prop :=
  ∀ s : State, ParamsLegal s.params → GrayCoherent s → CursorsInRange s → StagesInRange s →
    (pending s = true ↔ s.rdBin ≠ wrC s) ∧ (pending s = true ↔ countC s ≠ 0) ∧ countC s < s.params.depth ∧
      countC s = ((wrC s).toNat + s.params.depth - s.rdBin.toNat) % s.params.depth

/-- 40_fifo.md R137, R138: a read request at the raw port while empty changes no cursor and presents a value the model
does not determine; while not empty it is a pop. The rules say nothing of `rd_data` without a read request; that the
model gives no value there is its own choice (log entry 23). -/
def Obligations.RawReadPortIgnoresAnEmptyRead : Prop :=
  ∀ s : State,
    (pending s = false →
        readPort true s =
          (some (fitSlot s.params.variant (Config.freeValue s.draws)), { s with draws := s.draws + 1 })) ∧
      (pending s = true → readPort true s = (some (pop s).1, (pop s).2)) ∧
      readPort false s = (none, s)

/-- 20_memory.md R78, R79, 10_state.md R35, R37, R57: whatever the producer and the host do, every instruction keeps
the FIFO state the one its history explains: the consumer's view is a cursor value that was reached, never a later one,
and the last `DEPTH` (256) samples pushed stand in their slots. An inference the spec marks as its own (R78, R79).
Other values of `DEPTH` than 256 are log entry 13. -/
def Obligations.EveryInstructionKeepsTheHistory : Prop :=
  ∀ (i : Instr) (s t : State) (h : History), Tracks s h → exec i s = .next t → Tracks t (h.after i s)

/-- 20_memory.md R80, 40_fifo.md R140: while the consumer is less than `DEPTH` (256) samples behind, every instruction
keeps the samples popped the first ones pushed, in push order. An inference the spec marks as its own (R140). Other
values of `DEPTH` than 256 are log entry 13. -/
def Obligations.OrderIsKeptWithoutOverrun : Prop :=
  ∀ (i : Instr) (s t : State) (h : History), Tracks s h → InOrder h → NoOverrun s → exec i s = .next t →
    InOrder (h.after i s)

/-- 45_control.md R261: the launch state has the empty history, which is in order. An inference the spec marks as its
own (R261). The legal ranges of the parameters are log entry 13. -/
def Obligations.LaunchHasTheEmptyHistory : Prop :=
  ∀ (p : Params) (init : Byte), ParamsLegal p →
    Tracks (State.launch p init) (History.start p) ∧ InOrder (History.start p)

/-- 40_fifo.md R139: without overrun the consumer's view lies between what was popped and what was pushed, `count_c` is
their difference, and a pop takes no draw but returns the next sample pushed. An inference the spec marks as its own
(R139). R139 writes the bound 255, which is `DEPTH` - 1; other values of `DEPTH` than 256 are log entry 13. -/
def Obligations.WithoutOverrunPopsAreTheNextSample : Prop :=
  ∀ (s : State) (h : History), Tracks s h → NoOverrun s →
    s.nPop ≤ h.view ∧ h.view ≤ s.nPush ∧ countC s = h.view - s.nPop ∧
      (pending s = true → ∃ w, h.pushed[s.nPop]? = some w ∧ pop s = (w, advanceRead s))

/-- 20_memory.md R82: a pending pop of the slot the producer writes next happens only in overrun. An inference the spec
marks as its own (R82). Other values of `DEPTH` than 256 are log entry 13. -/
def Obligations.CollisionNeedsOverrun : Prop :=
  ∀ (s : State) (h : History), Tracks s h → pending s = true → s.rdBin = s.wrBin → s.nPush - s.nPop ≥ s.params.depth

/-- 40_fifo.md R140: without overrun, after `SETTLE` repeated pops return exactly the samples not yet popped, in push
order, and then nothing is pending. An inference the spec marks as its own (R140). Other values of `DEPTH` than 256 are
log entry 13. -/
def Obligations.SettleThenPopsReturnTheRest : Prop :=
  ∀ (s : State) (h : History), Tracks s h → NoOverrun s →
    (popWhile (s.params.depth - 1) (syncTimes s.params.syncStages s)).1 = h.pushed.drop s.nPop ∧
      pending (popWhile (s.params.depth - 1) (syncTimes s.params.syncStages s)).2 = false

/-- 30_encoding.md R116, 45_control.md R258, R262: from every state with coherent gray registers and the cursors in
range `DRAIN` ends: every stage holds `wr_gray`, nothing is pending, and the read cursor has caught up with the write
cursor. An inference the spec marks as its own (R258), in a finite form (log entry 15). Other values of `DEPTH` than
256 are log entry 13. -/
def Obligations.DrainEndsQuiescent : Prop :=
  ∀ s : State, ParamsLegal s.params → StagesMatch s → GrayCoherent s → CursorsInRange s →
    ∃ t, execAll (expand .drain s) s = .next t ∧ pending t = false ∧
      t.wsync = List.replicate s.params.syncStages s.wrGray ∧ t.rdBin = s.wrBin ∧
      t.nPop = s.nPop + (s.wrBin.toNat + s.params.depth - s.rdBin.toNat) % s.params.depth

/-- 40_fifo.md R141: after any number `N` of pushes with no pop, `SETTLE` and `DRAIN` pop exactly the last `N mod 256`
of them (the modulus is `DEPTH`), in push order. An inference the spec marks as its own (R141). Other values of `DEPTH`
than 256 are log entry 13. -/
def Obligations.OverrunLeavesTheLastSamples : Prop :=
  ∀ (s : State) (h : History) (ws : List Slot), Tracks s h → s.nPush = s.nPop → wrC s = s.wrBin →
    (popWhile (s.params.depth - 1) (syncTimes s.params.syncStages (pushAll ws s))).1 =
        (ws.map (fitSlot s.params.variant)).drop (ws.length - ws.length % s.params.depth) ∧
      pending (popWhile (s.params.depth - 1) (syncTimes s.params.syncStages (pushAll ws s))).2 = false

/-- 10_state.md R32: producer-domain state is written only by producer steps and reset, consumer-domain state only by
consumer-domain steps and reset. -/
def Obligations.DomainsKeepTheirOwnState : Prop :=
  ∀ (i : Instr) (s t : State), exec i s = .next t →
    (isProducerStep i = false → isReset i = false → SameProducer s t) ∧
      (isProducerStep i = true → SameConsumer s t)

/-- 20_memory.md R76, 40_fifo.md R131: a producer step does to producer-domain state the same whatever the consumer has
done. -/
def Obligations.ProducerIgnoresTheConsumer : Prop :=
  ∀ (i : Instr) (s₁ s₂ t₁ : State), isProducerStep i = true → SameProducer s₁ s₂ → exec i s₁ = .next t₁ →
    ∃ t₂, exec i s₂ = .next t₂ ∧ SameProducer t₁ t₂

/-- 45_control.md R257: the host fixes the launch parameters once: no instruction writes them. That they stand in
State, and that the host's further choices stand there as the list `moves`, which no instruction writes either, is the
model's choice (log entries 1 and 2). -/
def Obligations.ParametersAndMovesAreNeverWritten : Prop :=
  ∀ (i : Instr) (s t : State), exec i s = .next t → t.params = s.params ∧ t.moves = s.moves

/-- 10_state.md R55, 30_encoding.md R111, 70_reset_and_hazards.md R303: events are only appended, at most two per step
and in IR and RF at most one; producer, synchroniser and host steps, reset included, append none. -/
def Obligations.EventsAreOnlyAppended : Prop :=
  ∀ (i : Instr) (s t : State), exec i s = .next t →
    ∃ events : List EventWord, t.out = s.out ++ events ∧ events.length ≤ 2 ∧
      (s.params.variant ≠ .enc → events.length ≤ 1) ∧ (mayEmit i = false → events = [])

/-- 41_capture.md R152: `PIN v` pushes the whole snapshot exactly when a monitored line changed, and always records it.
-/
def Obligations.PinPushesOnMonitoredChange : Prop :=
  ∀ (v : Byte) (s : State), s.params.variant = .enc →
    ((v ^^^ s.pinsPrev) &&& s.params.monMask ≠ 0#8 →
        exec (.pin v) s = .next { push (v.setWidth 17) s with pinsPrev := v }) ∧
      ((v ^^^ s.pinsPrev) &&& s.params.monMask = 0#8 → exec (.pin v) s = .next { s with pinsPrev := v })

/-- 41_capture.md R155, R162, R165, R166: the next state of `PSTEP`, case by case: edge captured or not, counter
wrapping or not, skid full or not. At R9's values it is the rule's; the values `SENTINEL` and `REMAP` in the place of
the rule's 0x0000 of `SENT` and 0xFFFF are the model's choice (log entry 21), and so are counters of other widths
`TS_W` and skids of other depths `PUSHQ_DEPTH` (log entry 13). A `SENTINEL` or `REMAP` wider than `TS_W` bits is
recorded uncut (log entry 24). -/
def Obligations.PstepOutcome : Prop :=
  ∀ (lvl tick : Bool) (s : State), s.params.variant ≠ .enc → SkidInRange s →
    let captured := lvl ≠ s.lvlPrev ∧ lvl = s.edgeSel
    let wraps := tick = true ∧ s.tcnt = s.params.tsMask
    let ts := if s.tcnt = 0#16 then s.params.remap else s.tcnt
    let sent := 0#1 ++ s.params.sentinel
    let edge := if s.params.variant = .rf then BitVec.ofBool lvl ++ ts else ts.setWidth 17
    let base :=
      { s with
        lvlPrev := lvl
        edgeSel := if captured then !s.edgeSel else s.edgeSel
        passOut := if captured ∧ s.params.passEn = true then lvl ^^ s.params.passInv else s.passOut
        tcnt := if tick then (s.tcnt + 1#16) &&& s.params.tsMask else s.tcnt }
    exec (.pstep lvl tick) s =
      .next
        (if captured then
          if wraps then
            if s.pqOcc = s.params.pushqDepth then push edge base
            else { push sent (push edge base) with pqOcc := s.pqOcc + 1 }
          else push edge base
        else if wraps then push sent base
        else { base with pqOcc := s.pqOcc - 1 })

/-- 20_memory.md R70, R72: a producer step stores its samples in the slots from `wr_bin` on, modulo `DEPTH`, at most
two, and every other slot reads as before. Other values of `DEPTH` than 256 are log entry 13. -/
def Obligations.ProducerStepMemoryFrame : Prop :=
  ∀ (i : Instr) (s t : State), isProducerStep i = true → 1 ≤ s.params.ptrW → s.params.ptrW ≤ 8 →
    s.wrBin.toNat < s.params.depth → exec i s = .next t →
    (pushedBy i s).length ≤ 2 ∧
      (∀ j w, (pushedBy i s)[j]? = some w → memRead t.mem ((s.wrBin.toNat + j) % s.params.depth) = some w) ∧
      (∀ k, (∀ j, j < (pushedBy i s).length → k ≠ (s.wrBin.toNat + j) % s.params.depth) →
        memRead t.mem k = memRead s.mem k)

/-- 41_capture.md R156, R157: over one counter period with the level held, whatever the count at its start, exactly one
sentinel is pushed and the counter is back where it was. A period is 2 to the power `TS_W` ticks (65536); other widths
than 16 are log entry 13, and the sample's timestamp `SENTINEL` (0x0000) is log entry 21. A `SENTINEL` wider than
`TS_W` bits is pushed uncut (log entry 24). -/
def Obligations.OneSentinelPerCounterPeriod : Prop :=
  ∀ (lvl : Bool) (s : State), s.params.variant ≠ .enc → ParamsLegal s.params → CountInRange s → SkidInRange s →
    s.lvlPrev = lvl →
    ∃ t, execAll (List.replicate (2 ^ s.params.tsW) (.pstep lvl true)) s = .next t ∧ t.tcnt = s.tcnt ∧
      t.nPush = s.nPush + 1 ∧ t.wrBin = cursorSucc s.params s.wrBin ∧
      memRead t.mem s.wrBin.toNat = some (0#1 ++ s.params.sentinel) ∧
      ∀ k, k ≠ s.wrBin.toNat → memRead t.mem k = memRead s.mem k

/-- 30_encoding.md R104, R107: a captured edge is recorded with the counter value, except that 0 is recorded as `REMAP`
(0xFFFF). With `SENTINEL` 0, the value R104 reserves, and any other `REMAP`, that is never `SENTINEL`. Where no
captured edge records it, a sample with the timestamp `SENTINEL` is pushed only by the step that wraps the counter and
is the sentinel word with polarity 0. That the parameters stand for R104's 0x0000 and 0xFFFF, and what another
`SENTINEL` does, is the model's choice (log entry 21), and so are other counter widths than 16 (log entry 13). A
`SENTINEL` or `REMAP` wider than `TS_W` bits is recorded uncut (log entry 24). -/
def Obligations.EdgeTimestampsAreNeverTheSentinel : Prop :=
  ∀ (lvl tick : Bool) (s : State), s.params.variant ≠ .enc → SkidInRange s →
    let captured := lvl ≠ s.lvlPrev ∧ lvl = s.edgeSel
    let ts := if s.tcnt = 0#16 then s.params.remap else s.tcnt
    (captured → ∃ w, (pushedBy (.pstep lvl tick) s)[0]? = some w ∧ w.extractLsb' 0 16 = ts) ∧
      (s.params.sentinel = 0#16 → s.params.remap ≠ 0#16 → ts ≠ s.params.sentinel) ∧
      ((captured → ts ≠ s.params.sentinel) →
        ∀ w ∈ pushedBy (.pstep lvl tick) s, w.extractLsb' 0 16 = s.params.sentinel →
          w = 0#1 ++ s.params.sentinel ∧ tick = true ∧ s.tcnt = s.params.tsMask)

/-- 42_decoder_enc.md R180, R182 to R188: the next state of the ENC decoder on a popped snapshot. -/
def Obligations.EncSnapshotOutcome : Prop :=
  ∀ (snap : Byte) (s : State), s.params.variant = .enc →
    let btn := snap.getLsbD s.params.btnBit
    let pair := BitVec.ofBool (snap.getLsbD s.params.rotP1Bit) ++ BitVec.ofBool (snap.getLsbD s.params.rotP0Bit)
    let shifted := (s.rotState <<< 2) ||| pair.setWidth 8
    let moved := pair ≠ s.rotState.extractLsb' 0 2
    let ccw := moved ∧ pair = s.params.rest ∧ shifted.extractLsb' 0 6 = s.params.patCcw
    let cw := moved ∧ pair = s.params.rest ∧ shifted.extractLsb' 0 6 ≠ s.params.patCcw ∧
      shifted.extractLsb' 0 6 = s.params.patCw
    let count := if ccw then s.rotCount - s.params.rotStep else if cw then s.rotCount + s.params.rotStep else s.rotCount
    exec (.sampleEncSnap snap) s =
      .next
        { s with
          buttonState := btn
          rotState := if moved then shifted else s.rotState
          rotCount := count
          out := s.out ++
            (if btn = s.buttonState then [] else if btn then [0x100000000#36] else [0x200000000#36]) ++
            (if ccw then [0x4#4 ++ count.setWidth 32] else if cw then [0x3#4 ++ count.setWidth 32] else []) }

/-- 42_decoder_enc.md R189: at most one of `ROT_CW` and `ROT_CCW` is emitted by one sample. An inference the spec marks
as its own (R189). -/
def Obligations.AtMostOneRotationEvent : Prop :=
  ∀ (snap : Byte) (s t : State), exec (.sampleEncSnap snap) s = .next t →
    ((t.out.drop s.out.length).filter fun w => w.extractLsb' 32 4 == 0x3#4 || w.extractLsb' 32 4 == 0x4#4).length ≤ 1

/-- 42_decoder_enc.md R181: the button concern depends only on the button level and `button_state`, the rotary concern
only on the pair, `rot_state` and `rot_count`. -/
def Obligations.ButtonAndRotaryAreIndependent : Prop :=
  ∀ (x y : Byte) (s t s' t' : State), s.params = t.params →
    exec (.sampleEncSnap x) s = .next s' → exec (.sampleEncSnap y) t = .next t' →
    (snapBtn s.params x = snapBtn t.params y → s.buttonState = t.buttonState →
        s'.buttonState = t'.buttonState ∧
          (s'.out.drop s.out.length).filter (fun w => w.extractLsb' 32 4 == 0x1#4 || w.extractLsb' 32 4 == 0x2#4) =
            (t'.out.drop t.out.length).filter (fun w => w.extractLsb' 32 4 == 0x1#4 || w.extractLsb' 32 4 == 0x2#4)) ∧
      (snapPair s.params x = snapPair t.params y → s.rotState = t.rotState → s.rotCount = t.rotCount →
        s'.rotState = t'.rotState ∧ s'.rotCount = t'.rotCount ∧
          (s'.out.drop s.out.length).filter (fun w => w.extractLsb' 32 4 == 0x3#4 || w.extractLsb' 32 4 == 0x4#4) =
            (t'.out.drop t.out.length).filter (fun w => w.extractLsb' 32 4 == 0x3#4 || w.extractLsb' 32 4 == 0x4#4))

/-- 42_decoder_enc.md R183 to R187, 90_conflicts.md C3: with the default parameters, from the detent with the button up
and any older history and count, the corrected clockwise turn adds 4 and emits one `ROT_CW`, the corrected
counter-clockwise turn subtracts 4 and emits one `ROT_CCW`, and the two uncorrected sequences emit nothing. -/
def Obligations.DetentTurnsCountOnce : Prop :=
  ∀ s : State, s.params = Params.default .enc → s.rotState.extractLsb' 0 2 = 0b11#2 → s.buttonState = false →
    execAll [.sampleEncSnap 1#8, .sampleEncSnap 0#8, .sampleEncSnap 2#8, .sampleEncSnap 3#8] s =
        .next { s with
          rotState := 0x4B#8, rotCount := s.rotCount + 4#8, out := s.out ++ [0x3#4 ++ (s.rotCount + 4#8).setWidth 32] }
∧
      execAll [.sampleEncSnap 2#8, .sampleEncSnap 0#8, .sampleEncSnap 1#8, .sampleEncSnap 3#8] s =
        .next { s with
          rotState := 0x87#8, rotCount := s.rotCount - 4#8, out := s.out ++ [0x4#4 ++ (s.rotCount - 4#8).setWidth 32] }
∧
      execAll [.sampleEncSnap 1#8, .sampleEncSnap 0#8, .sampleEncSnap 3#8] s = .next { s with rotState := 0xD3#8 } ∧
      execAll [.sampleEncSnap 2#8, .sampleEncSnap 0#8, .sampleEncSnap 3#8] s = .next { s with rotState := 0xE3#8 }

/-- 43_decoder_ir.md R201, R207: a sentinel emits nothing and only shifts the history. The rules' 0 is the default of
`SENTINEL`; that an instance with another `SENTINEL` shifts that in is the model's choice (log entry 21). -/
def Obligations.IrSentinelOnlyShiftsTheHistory : Prop :=
  ∀ s : State, s.params.variant = .ir →
    exec .sampleIrSent s = .next { s with hist2 := s.hist1, hist1 := s.params.sentinel }

/-- 43_decoder_ir.md R200, R202 to R207: the next state of the IR decoder on an edge, rows in order. At R9's values it
is the rules'; that the history is compared with `SENTINEL` and the bridge adds `WRAP_SPAN`, whatever their values, is
the model's choice (log entry 21), and so is the free value where `WRAP_SPAN` puts the end of a bridge before its start
(log entry 22). -/
def Obligations.IrEdgeOutcome : Prop :=
  ∀ (cur : Ts) (s : State), s.params.variant = .ir → cur ≠ s.params.sentinel →
    let scaled (ticks : Nat) : EventWord := 0x5#4 ++ BitVec.ofNat 32 (ticks * s.params.usPerTick.toNat)
    exec (.sampleIrEdge cur) s =
      .next
        { s with
          hist2 := s.hist1
          hist1 := cur
          out := s.out ++
            [if s.hist1 = s.params.sentinel ∧ s.hist2 = s.params.sentinel then 0x600000000#36
            else if s.hist1 = s.params.sentinel then
              if s.hist2.toNat ≤ cur.toNat + s.params.wrapSpan then
                scaled (cur.toNat + s.params.wrapSpan - s.hist2.toNat)
              else scaled (Config.unstatedTicks s.params.wrapSpan s.hist2 cur)
            else if s.hist1.toNat > cur.toNat then 0x700000000#36
            else scaled (cur.toNat - s.hist1.toNat)] }

/-- 43_decoder_ir.md R208: a bridged pulse spans 2 to 131070 ticks, a plain pulse 0 to 65534, with `WRAP_SPAN` the
65536 counts of the 16-bit counter. An inference the spec marks as its own (R208). -/
def Obligations.IrTickBounds : Prop :=
  ∀ (p : Params) (start cur : Ts), p.wrapSpan = 65536 → start ≠ 0#16 → cur ≠ 0#16 →
    (2 ≤ bridgedTicks p start cur ∧ bridgedTicks p start cur ≤ 131070) ∧
      (start.toNat ≤ cur.toNat → (plainTicks start cur : Int) = cur.toNat - start.toNat ∧ plainTicks start cur ≤ 65534)

/-- 43_decoder_ir.md R203, 90_conflicts.md C4: two or more sentinels in a row give one `GAP`, at the edge that ends the
span, and no pulse, whatever the value of `SENTINEL` (log entry 21). -/
def Obligations.AnyRunOfSentinelsGivesOneGap : Prop :=
  ∀ (n : Nat) (cur : Ts) (s : State), s.params.variant = .ir → cur ≠ s.params.sentinel → 2 ≤ n →
    execAll (List.replicate n .sampleIrSent ++ [.sampleIrEdge cur]) s =
      .next { s with hist2 := s.params.sentinel, hist1 := cur, out := s.out ++ [0x600000000#36] }

/-- 43_decoder_ir.md R209: after an edge at count `a`, an edge `n` ticks later, with one sentinel per counter wrap
between them and neither edge at the count `SENTINEL` (0), gives a pulse of the true tick count when at most one wrap
lies between, and a `GAP` when two or more do. A wrap comes every `WRAP_SPAN` = 2 to the power `TS_W` (65536) ticks;
other values are log entries 13 and 21. An inference the spec marks as its own (R209). -/
def Obligations.IrMeasuresTrueTicks : Prop :=
  ∀ (a : Ts) (n : Nat) (s : State), s.params.variant = .ir → ParamsLegal s.params →
    s.params.wrapSpan = 2 ^ s.params.tsW → s.hist1 = a → a.toNat < s.params.wrapSpan → a ≠ s.params.sentinel →
    let cur : Ts := BitVec.ofNat 16 ((a.toNat + n) % s.params.wrapSpan)
    let wraps := (a.toNat + n) / s.params.wrapSpan
    cur ≠ s.params.sentinel →
    ∃ t, execAll (List.replicate wraps .sampleIrSent ++ [.sampleIrEdge cur]) s = .next t ∧
      t.out = s.out ++
        [if wraps ≤ 1 then 0x5#4 ++ BitVec.ofNat 32 (n * s.params.usPerTick.toNat) else 0x600000000#36]

/-- 44_decoder_rf.md R220: while `rf_enable = 0` a popped sample changes nothing. -/
def Obligations.RfDisabledDiscardsSamples : Prop :=
  ∀ (pol : Bool) (ts : Ts) (s : State), s.params.variant = .rf → s.rfEnable = false →
    exec (.sampleRfSent pol) s = .next s ∧ exec (.sampleRfRise ts) s = .next s ∧ exec (.sampleRfFall ts) s = .next s

/-- 44_decoder_rf.md R221: a sentinel changes nothing, whatever its polarity bit. -/
def Obligations.RfSentinelChangesNothing : Prop :=
  ∀ (pol : Bool) (s : State), s.params.variant = .rf → exec (.sampleRfSent pol) s = .next s

/-- 44_decoder_rf.md R222, R223, R225: a rising edge sets the baseline; in the search a period strictly over the
threshold, modulo 2^16, enters the capture phase with index 0. Another modulus, 2 to the power `TS_W`, is log entry 13,
and another `SENTINEL` than 0 is log entry 21. -/
def Obligations.RfRisingEdgeOutcome : Prop :=
  ∀ (ts : Ts) (s : State), s.params.variant = .rf → s.rfEnable = true → ts ≠ s.params.sentinel →
    (s.syncFound = true → exec (.sampleRfRise ts) s = .next { s with base := ts }) ∧
      (s.syncFound = false → s.params.syncThreshold < ((ts - s.base) &&& s.params.tsMask).toNat →
        exec (.sampleRfRise ts) s = .next { s with base := ts, syncFound := true, idx := 0#5 }) ∧
      (s.syncFound = false → ((ts - s.base) &&& s.params.tsMask).toNat ≤ s.params.syncThreshold →
        exec (.sampleRfRise ts) s = .next { s with base := ts })

/-- 44_decoder_rf.md R224, R226: a falling edge does nothing in the search, and before the last slot it stores the time
since the baseline in the slot of the index and counts on. Other values of `FRAME_LEN` (24) and `TS_W` (16) are log
entry 13, and another `SENTINEL` than 0 is log entry 21. -/
def Obligations.RfFallingEdgeOutcome : Prop :=
  ∀ (ts : Ts) (s : State), s.params.variant = .rf → s.rfEnable = true → ts ≠ s.params.sentinel →
    (s.syncFound = false → exec (.sampleRfFall ts) s = .next s) ∧
      (s.syncFound = true → s.idx.toNat + 1 < s.params.frameLen → s.params.frameLen ≤ 24 →
        ∃ t, exec (.sampleRfFall ts) s = .next t ∧ t.idx.toNat = s.idx.toNat + 1 ∧
          t.slots[s.idx.toNat]? = some ((ts - s.base) &&& s.params.tsMask) ∧
          (∀ k, k ≠ s.idx.toNat → t.slots[k]? = s.slots[k]?) ∧
          t = { s with slots := t.slots, idx := t.idx })

/-- 44_decoder_rf.md R226, R227, R229, R230: the falling edge that fills the last of the `FRAME_LEN` (24) slots reduces
the frame, emits it exactly when the previous frame exists and is equal, remembers it, and returns to the search. Other
values of `FRAME_LEN` and `TS_W` are log entry 13, and another `SENTINEL` than 0 is log entry 21. -/
def Obligations.RfFrameCompletion : Prop :=
  ∀ (ts : Ts) (s : State), s.params.variant = .rf → s.rfEnable = true → ts ≠ s.params.sentinel → s.syncFound = true →
    s.idx.toNat + 1 = s.params.frameLen → s.params.frameLen ≤ 24 →
    ∃ slots : Vector Ts 24, slots[s.idx.toNat]? = some ((ts - s.base) &&& s.params.tsMask) ∧
      (∀ k, k ≠ s.idx.toNat → slots[k]? = s.slots[k]?) ∧
      let value := reduceFrame s.params slots
      exec (.sampleRfFall ts) s =
        .next
          { s with
            slots := slots
            framePrev := value
            framePrevValid := true
            syncFound := false
            idx := 0#5
            out := s.out ++
              (if s.framePrevValid = true ∧ value = s.framePrev then [0x8#4 ++ value.setWidth 32] else []) }

/-- 44_decoder_rf.md R228: bit by bit, the frame value has the threshold bit of slot `i` at place 23 - i in `MSB_FIRST`
and at place i in `LSB_FIRST`, and no other bit. With another `FRAME_LEN` than 24 the place in `MSB_FIRST` is
`FRAME_LEN` - 1 - i, the model's choice (log entry 13). -/
def Obligations.FrameValueIsBitPerSlot : Prop :=
  ∀ (p : Params) (slots : Vector Ts 24), p.frameLen ≤ 24 →
    (∀ i : Fin 24, i.val < p.frameLen →
        (p.frameBitOrder = .msbFirst →
            (reduceFrame p slots).getLsbD (p.frameLen - 1 - i.val) = decide (slots[i].toNat > p.bitThreshold)) ∧
          (p.frameBitOrder = .lsbFirst →
            (reduceFrame p slots).getLsbD i.val = decide (slots[i].toNat > p.bitThreshold))) ∧
      ∀ j, p.frameLen ≤ j → (reduceFrame p slots).getLsbD j = false

/-- 44_decoder_rf.md R225 to R230: from the start of the capture phase any samples with exactly `FRAME_LEN` (24)
falling edges, the last sample one of them, and any rising edges and sentinels in between, complete one frame: the
slots are the falling edges' times, in order, each since the last rising edge before it or the baseline at the start,
and the value is emitted exactly when it repeats the previous frame. Other values of `FRAME_LEN` and `TS_W` are log
entry 13, and another `SENTINEL` than 0 is log entry 21. -/
def Obligations.TwentyFourFallsMakeAFrame : Prop :=
  ∀ (ws : List Slot) (s : State), s.params.variant = .rf → s.rfEnable = true → s.syncFound = true → s.idx = 0#5 →
    ParamsLegal s.params → (fallTimes s.params s.base ws).length = s.params.frameLen →
    (∀ w, ws.getLast? = some w → isFall s.params w = true) →
    ∃ t, execAll (ws.map (decodeSample s.params)) s = .next t ∧
      (∀ (k : Nat) (d : Ts), (fallTimes s.params s.base ws)[k]? = some d → t.slots[k]? = some d) ∧
      (∀ k : Nat, s.params.frameLen ≤ k → t.slots[k]? = s.slots[k]?) ∧
      let value := reduceFrame s.params t.slots
      t =
        { s with
          slots := t.slots
          base := baseAfter s.params s.base ws
          framePrev := value
          framePrevValid := true
          syncFound := false
          idx := 0#5
          out := s.out ++
            (if s.framePrevValid = true ∧ value = s.framePrev then [0x8#4 ++ value.setWidth 32] else []) }

/-- 10_state.md R58, 45_control.md R254: what `RESET` leaves, variant by variant; memory, `slots` and `out` are kept.
That the fields of the other variants' registers are kept, and that `pass_out` is written in RF too (R254) where R58's
row names IR, is the model's reading (log entry 11). -/
def Obligations.ResetLeavesTheResetState : Prop :=
  ∀ (init : Byte) (s : State),
    let fifo :=
      { s with
        wrBin := 0#8, wrGray := 0#8, rdBin := 0#8, rdGray := 0#8
        wsync := List.replicate s.params.syncStages 0#8
        nPush := 0, nPop := 0 }
    let capture :=
      { fifo with
        tcnt := 0#16, edgeSel := s.params.edgeSelInit, lvlPrev := init.getLsbD 0
        passOut := init.getLsbD 0 ^^ s.params.passInv, pqOcc := 0 }
    (s.params.variant = .enc →
        exec (.reset init) s =
          .next { fifo with pinsPrev := init, buttonState := false, rotState := 0#8, rotCount := 0#8 }) ∧
      (s.params.variant = .ir → init &&& 0xFE#8 = 0#8 →
        exec (.reset init) s = .next { capture with hist1 := 0#16, hist2 := 0#16 }) ∧
      (s.params.variant = .rf → init &&& 0xFE#8 = 0#8 →
        exec (.reset init) s =
          .next { capture with
            syncFound := false, idx := 0#5, base := 0#16, framePrev := 0#24, framePrevValid := false
            rfEnable := false })

/-- 45_control.md R255: `RFEN` writes `rf_enable`; a change from 0 to 1 also starts a fresh sync search. -/
def Obligations.RfenOutcome : Prop :=
  ∀ (v : Bool) (s : State), s.params.variant = .rf →
    (s.rfEnable = false → v = true →
        exec (.rfen v) s = .next { s with rfEnable := true, syncFound := false, idx := 0#5 }) ∧
      (¬(s.rfEnable = false ∧ v = true) → exec (.rfen v) s = .next { s with rfEnable := v })

/-- 45_control.md R256: `TMO` abandons the frame being captured, and in the search changes nothing. -/
def Obligations.TmoOutcome : Prop :=
  ∀ s : State, s.params.variant = .rf →
    (s.syncFound = true → exec .tmo s = .next { s with syncFound := false, idx := 0#5 }) ∧
      (s.syncFound = false → exec .tmo s = .next s)

/-- 30_encoding.md R108, R109: each event kind appends its word, code in bits 35:32, and changes nothing else. -/
def Obligations.EventWordsAreAppended : Prop :=
  ∀ (count : Byte) (duration : BitVec 32) (value : FrameValue) (s : State),
    (s.params.variant = .enc →
        exec .eventButtonPressed s = .next { s with out := s.out ++ [0x100000000#36] } ∧
          exec .eventButtonReleased s = .next { s with out := s.out ++ [0x200000000#36] } ∧
          exec (.eventRotCw count) s = .next { s with out := s.out ++ [0x3000000#28 ++ count] } ∧
          exec (.eventRotCcw count) s = .next { s with out := s.out ++ [0x4000000#28 ++ count] }) ∧
      (s.params.variant = .ir →
        exec (.eventPulse duration) s = .next { s with out := s.out ++ [0x5#4 ++ duration] } ∧
          exec .eventGap s = .next { s with out := s.out ++ [0x600000000#36] } ∧
          exec .eventAnomaly s = .next { s with out := s.out ++ [0x700000000#36] }) ∧
      (s.params.variant = .rf →
        exec (.eventFrame value) s = .next { s with out := s.out ++ [0x800#12 ++ value] })

/-- 60_exceptions.md R270, 30_encoding.md R114: no instruction faults; every legal one answers a next state, and one
that the variant does not list or whose operands it does not allow is refused. R114 speaks of stimulus words; that
sample classes and event kinds of another variant are refused too is the model's reading (log entry 10), and event
words as instructions are its own (log entry 3). -/
def Obligations.LegalInstructionsAlwaysStep : Prop :=
  ∀ (i : Instr) (s : State),
    (∀ r, exec i s ≠ .fault r) ∧
      (i.legalIn s.params.variant = true → ∃ t, exec i s = .next t) ∧
      ((i.listedIn s.params.variant && i.operandsLegalIn s.params.variant) = false → ∃ r, exec i s = .refused r)

/-- 10_state.md R33 to R38, R50, 30_encoding.md R109: every step keeps the invariant of the machine. What makes a word
of `out` a legal one takes in the payload range of its kind, the model's choice (log entry 17). The legal ranges of the
parameters are log entry 13. -/
def Obligations.StepKeepsMachineInv : Prop :=
  ∀ s t : State, MachineInv s → step s = .next t → MachineInv t

/-- 10_state.md R58, 45_control.md R261: the machine right after reset meets the invariant, whatever the variant, the
other launch parameters and the reset argument, and State.reset is one such machine (its parameters and argument are
the model's choice, log entries 1 and 9). The legal ranges of the parameters are log entry 13. -/
def Obligations.ResetMeetsMachineInv : Prop :=
  (∀ (p : Params) (init : Byte), ParamsLegal p → MachineInv (State.launch p init)) ∧
    ParamsLegal State.reset.params ∧ State.reset = State.launch (Params.default .enc) 0#8
end

