-- ==== Sys2Proof/Laws/State.lean ====
section
/-!
SUPPORT. The small lemmas of the named updates: what each does to each field of State, true by unfolding one record update,
so that no later proof unfolds it.
-/
namespace Sys2Proof.Machine

@[simp] theorem draw_params (s : State) : (draw s).2.params = s.params := rfl
@[simp] theorem draw_mem (s : State) : (draw s).2.mem = s.mem := rfl
@[simp] theorem draw_wrBin (s : State) : (draw s).2.wrBin = s.wrBin := rfl
@[simp] theorem draw_wrGray (s : State) : (draw s).2.wrGray = s.wrGray := rfl
@[simp] theorem draw_rdBin (s : State) : (draw s).2.rdBin = s.rdBin := rfl
@[simp] theorem draw_rdGray (s : State) : (draw s).2.rdGray = s.rdGray := rfl
@[simp] theorem draw_wsync (s : State) : (draw s).2.wsync = s.wsync := rfl
@[simp] theorem draw_pinsPrev (s : State) : (draw s).2.pinsPrev = s.pinsPrev := rfl
@[simp] theorem draw_tcnt (s : State) : (draw s).2.tcnt = s.tcnt := rfl
@[simp] theorem draw_edgeSel (s : State) : (draw s).2.edgeSel = s.edgeSel := rfl
@[simp] theorem draw_lvlPrev (s : State) : (draw s).2.lvlPrev = s.lvlPrev := rfl
@[simp] theorem draw_passOut (s : State) : (draw s).2.passOut = s.passOut := rfl
@[simp] theorem draw_pqOcc (s : State) : (draw s).2.pqOcc = s.pqOcc := rfl
@[simp] theorem draw_buttonState (s : State) : (draw s).2.buttonState = s.buttonState := rfl
@[simp] theorem draw_rotState (s : State) : (draw s).2.rotState = s.rotState := rfl
@[simp] theorem draw_rotCount (s : State) : (draw s).2.rotCount = s.rotCount := rfl
@[simp] theorem draw_hist1 (s : State) : (draw s).2.hist1 = s.hist1 := rfl
@[simp] theorem draw_hist2 (s : State) : (draw s).2.hist2 = s.hist2 := rfl
@[simp] theorem draw_syncFound (s : State) : (draw s).2.syncFound = s.syncFound := rfl
@[simp] theorem draw_idx (s : State) : (draw s).2.idx = s.idx := rfl
@[simp] theorem draw_slots (s : State) : (draw s).2.slots = s.slots := rfl
@[simp] theorem draw_base (s : State) : (draw s).2.base = s.base := rfl
@[simp] theorem draw_framePrev (s : State) : (draw s).2.framePrev = s.framePrev := rfl
@[simp] theorem draw_framePrevValid (s : State) : (draw s).2.framePrevValid = s.framePrevValid := rfl
@[simp] theorem draw_rfEnable (s : State) : (draw s).2.rfEnable = s.rfEnable := rfl
@[simp] theorem draw_out (s : State) : (draw s).2.out = s.out := rfl
@[simp] theorem draw_nPush (s : State) : (draw s).2.nPush = s.nPush := rfl
@[simp] theorem draw_nPop (s : State) : (draw s).2.nPop = s.nPop := rfl
@[simp] theorem draw_draws (s : State) : (draw s).2.draws = s.draws + 1 := rfl
@[simp] theorem draw_moves (s : State) : (draw s).2.moves = s.moves := rfl

@[simp] theorem push_params (w : Slot) (s : State) : (push w s).params = s.params := rfl
@[simp] theorem push_mem (w : Slot) (s : State) : (push w s).mem = memWrite s.mem s.wrBin.toNat (fitSlot s.params.variant w) := rfl
@[simp] theorem push_wrBin (w : Slot) (s : State) : (push w s).wrBin = cursorSucc s.params s.wrBin := rfl
@[simp] theorem push_wrGray (w : Slot) (s : State) : (push w s).wrGray = bin2gray (cursorSucc s.params s.wrBin) := rfl
@[simp] theorem push_rdBin (w : Slot) (s : State) : (push w s).rdBin = s.rdBin := rfl
@[simp] theorem push_rdGray (w : Slot) (s : State) : (push w s).rdGray = s.rdGray := rfl
@[simp] theorem push_wsync (w : Slot) (s : State) : (push w s).wsync = s.wsync := rfl
@[simp] theorem push_pinsPrev (w : Slot) (s : State) : (push w s).pinsPrev = s.pinsPrev := rfl
@[simp] theorem push_tcnt (w : Slot) (s : State) : (push w s).tcnt = s.tcnt := rfl
@[simp] theorem push_edgeSel (w : Slot) (s : State) : (push w s).edgeSel = s.edgeSel := rfl
@[simp] theorem push_lvlPrev (w : Slot) (s : State) : (push w s).lvlPrev = s.lvlPrev := rfl
@[simp] theorem push_passOut (w : Slot) (s : State) : (push w s).passOut = s.passOut := rfl
@[simp] theorem push_pqOcc (w : Slot) (s : State) : (push w s).pqOcc = s.pqOcc := rfl
@[simp] theorem push_buttonState (w : Slot) (s : State) : (push w s).buttonState = s.buttonState := rfl
@[simp] theorem push_rotState (w : Slot) (s : State) : (push w s).rotState = s.rotState := rfl
@[simp] theorem push_rotCount (w : Slot) (s : State) : (push w s).rotCount = s.rotCount := rfl
@[simp] theorem push_hist1 (w : Slot) (s : State) : (push w s).hist1 = s.hist1 := rfl
@[simp] theorem push_hist2 (w : Slot) (s : State) : (push w s).hist2 = s.hist2 := rfl
@[simp] theorem push_syncFound (w : Slot) (s : State) : (push w s).syncFound = s.syncFound := rfl
@[simp] theorem push_idx (w : Slot) (s : State) : (push w s).idx = s.idx := rfl
@[simp] theorem push_slots (w : Slot) (s : State) : (push w s).slots = s.slots := rfl
@[simp] theorem push_base (w : Slot) (s : State) : (push w s).base = s.base := rfl
@[simp] theorem push_framePrev (w : Slot) (s : State) : (push w s).framePrev = s.framePrev := rfl
@[simp] theorem push_framePrevValid (w : Slot) (s : State) : (push w s).framePrevValid = s.framePrevValid := rfl
@[simp] theorem push_rfEnable (w : Slot) (s : State) : (push w s).rfEnable = s.rfEnable := rfl
@[simp] theorem push_out (w : Slot) (s : State) : (push w s).out = s.out := rfl
@[simp] theorem push_nPush (w : Slot) (s : State) : (push w s).nPush = s.nPush + 1 := rfl
@[simp] theorem push_nPop (w : Slot) (s : State) : (push w s).nPop = s.nPop := rfl
@[simp] theorem push_draws (w : Slot) (s : State) : (push w s).draws = s.draws := rfl
@[simp] theorem push_moves (w : Slot) (s : State) : (push w s).moves = s.moves := rfl

@[simp] theorem syncShift_params (s : State) : (syncShift s).params = s.params := rfl
@[simp] theorem syncShift_mem (s : State) : (syncShift s).mem = s.mem := rfl
@[simp] theorem syncShift_wrBin (s : State) : (syncShift s).wrBin = s.wrBin := rfl
@[simp] theorem syncShift_wrGray (s : State) : (syncShift s).wrGray = s.wrGray := rfl
@[simp] theorem syncShift_rdBin (s : State) : (syncShift s).rdBin = s.rdBin := rfl
@[simp] theorem syncShift_rdGray (s : State) : (syncShift s).rdGray = s.rdGray := rfl
@[simp] theorem syncShift_wsync (s : State) : (syncShift s).wsync = (s.wrGray :: s.wsync).dropLast := rfl
@[simp] theorem syncShift_pinsPrev (s : State) : (syncShift s).pinsPrev = s.pinsPrev := rfl
@[simp] theorem syncShift_tcnt (s : State) : (syncShift s).tcnt = s.tcnt := rfl
@[simp] theorem syncShift_edgeSel (s : State) : (syncShift s).edgeSel = s.edgeSel := rfl
@[simp] theorem syncShift_lvlPrev (s : State) : (syncShift s).lvlPrev = s.lvlPrev := rfl
@[simp] theorem syncShift_passOut (s : State) : (syncShift s).passOut = s.passOut := rfl
@[simp] theorem syncShift_pqOcc (s : State) : (syncShift s).pqOcc = s.pqOcc := rfl
@[simp] theorem syncShift_buttonState (s : State) : (syncShift s).buttonState = s.buttonState := rfl
@[simp] theorem syncShift_rotState (s : State) : (syncShift s).rotState = s.rotState := rfl
@[simp] theorem syncShift_rotCount (s : State) : (syncShift s).rotCount = s.rotCount := rfl
@[simp] theorem syncShift_hist1 (s : State) : (syncShift s).hist1 = s.hist1 := rfl
@[simp] theorem syncShift_hist2 (s : State) : (syncShift s).hist2 = s.hist2 := rfl
@[simp] theorem syncShift_syncFound (s : State) : (syncShift s).syncFound = s.syncFound := rfl
@[simp] theorem syncShift_idx (s : State) : (syncShift s).idx = s.idx := rfl
@[simp] theorem syncShift_slots (s : State) : (syncShift s).slots = s.slots := rfl
@[simp] theorem syncShift_base (s : State) : (syncShift s).base = s.base := rfl
@[simp] theorem syncShift_framePrev (s : State) : (syncShift s).framePrev = s.framePrev := rfl
@[simp] theorem syncShift_framePrevValid (s : State) : (syncShift s).framePrevValid = s.framePrevValid := rfl
@[simp] theorem syncShift_rfEnable (s : State) : (syncShift s).rfEnable = s.rfEnable := rfl
@[simp] theorem syncShift_out (s : State) : (syncShift s).out = s.out := rfl
@[simp] theorem syncShift_nPush (s : State) : (syncShift s).nPush = s.nPush := rfl
@[simp] theorem syncShift_nPop (s : State) : (syncShift s).nPop = s.nPop := rfl
@[simp] theorem syncShift_draws (s : State) : (syncShift s).draws = s.draws := rfl
@[simp] theorem syncShift_moves (s : State) : (syncShift s).moves = s.moves := rfl

@[simp] theorem advanceRead_params (s : State) : (advanceRead s).params = s.params := rfl
@[simp] theorem advanceRead_mem (s : State) : (advanceRead s).mem = s.mem := rfl
@[simp] theorem advanceRead_wrBin (s : State) : (advanceRead s).wrBin = s.wrBin := rfl
@[simp] theorem advanceRead_wrGray (s : State) : (advanceRead s).wrGray = s.wrGray := rfl
@[simp] theorem advanceRead_rdBin (s : State) : (advanceRead s).rdBin = cursorSucc s.params s.rdBin := rfl
@[simp] theorem advanceRead_rdGray (s : State) : (advanceRead s).rdGray = bin2gray (cursorSucc s.params s.rdBin) := rfl
@[simp] theorem advanceRead_wsync (s : State) : (advanceRead s).wsync = s.wsync := rfl
@[simp] theorem advanceRead_pinsPrev (s : State) : (advanceRead s).pinsPrev = s.pinsPrev := rfl
@[simp] theorem advanceRead_tcnt (s : State) : (advanceRead s).tcnt = s.tcnt := rfl
@[simp] theorem advanceRead_edgeSel (s : State) : (advanceRead s).edgeSel = s.edgeSel := rfl
@[simp] theorem advanceRead_lvlPrev (s : State) : (advanceRead s).lvlPrev = s.lvlPrev := rfl
@[simp] theorem advanceRead_passOut (s : State) : (advanceRead s).passOut = s.passOut := rfl
@[simp] theorem advanceRead_pqOcc (s : State) : (advanceRead s).pqOcc = s.pqOcc := rfl
@[simp] theorem advanceRead_buttonState (s : State) : (advanceRead s).buttonState = s.buttonState := rfl
@[simp] theorem advanceRead_rotState (s : State) : (advanceRead s).rotState = s.rotState := rfl
@[simp] theorem advanceRead_rotCount (s : State) : (advanceRead s).rotCount = s.rotCount := rfl
@[simp] theorem advanceRead_hist1 (s : State) : (advanceRead s).hist1 = s.hist1 := rfl
@[simp] theorem advanceRead_hist2 (s : State) : (advanceRead s).hist2 = s.hist2 := rfl
@[simp] theorem advanceRead_syncFound (s : State) : (advanceRead s).syncFound = s.syncFound := rfl
@[simp] theorem advanceRead_idx (s : State) : (advanceRead s).idx = s.idx := rfl
@[simp] theorem advanceRead_slots (s : State) : (advanceRead s).slots = s.slots := rfl
@[simp] theorem advanceRead_base (s : State) : (advanceRead s).base = s.base := rfl
@[simp] theorem advanceRead_framePrev (s : State) : (advanceRead s).framePrev = s.framePrev := rfl
@[simp] theorem advanceRead_framePrevValid (s : State) : (advanceRead s).framePrevValid = s.framePrevValid := rfl
@[simp] theorem advanceRead_rfEnable (s : State) : (advanceRead s).rfEnable = s.rfEnable := rfl
@[simp] theorem advanceRead_out (s : State) : (advanceRead s).out = s.out := rfl
@[simp] theorem advanceRead_nPush (s : State) : (advanceRead s).nPush = s.nPush := rfl
@[simp] theorem advanceRead_nPop (s : State) : (advanceRead s).nPop = s.nPop + 1 := rfl
@[simp] theorem advanceRead_draws (s : State) : (advanceRead s).draws = s.draws := rfl
@[simp] theorem advanceRead_moves (s : State) : (advanceRead s).moves = s.moves := rfl

@[simp] theorem emit_params (k : EventKind) (p : BitVec 32) (s : State) : (emit k p s).params = s.params := rfl
@[simp] theorem emit_mem (k : EventKind) (p : BitVec 32) (s : State) : (emit k p s).mem = s.mem := rfl
@[simp] theorem emit_wrBin (k : EventKind) (p : BitVec 32) (s : State) : (emit k p s).wrBin = s.wrBin := rfl
@[simp] theorem emit_wrGray (k : EventKind) (p : BitVec 32) (s : State) : (emit k p s).wrGray = s.wrGray := rfl
@[simp] theorem emit_rdBin (k : EventKind) (p : BitVec 32) (s : State) : (emit k p s).rdBin = s.rdBin := rfl
@[simp] theorem emit_rdGray (k : EventKind) (p : BitVec 32) (s : State) : (emit k p s).rdGray = s.rdGray := rfl
@[simp] theorem emit_wsync (k : EventKind) (p : BitVec 32) (s : State) : (emit k p s).wsync = s.wsync := rfl
@[simp] theorem emit_pinsPrev (k : EventKind) (p : BitVec 32) (s : State) : (emit k p s).pinsPrev = s.pinsPrev := rfl
@[simp] theorem emit_tcnt (k : EventKind) (p : BitVec 32) (s : State) : (emit k p s).tcnt = s.tcnt := rfl
@[simp] theorem emit_edgeSel (k : EventKind) (p : BitVec 32) (s : State) : (emit k p s).edgeSel = s.edgeSel := rfl
@[simp] theorem emit_lvlPrev (k : EventKind) (p : BitVec 32) (s : State) : (emit k p s).lvlPrev = s.lvlPrev := rfl
@[simp] theorem emit_passOut (k : EventKind) (p : BitVec 32) (s : State) : (emit k p s).passOut = s.passOut := rfl
@[simp] theorem emit_pqOcc (k : EventKind) (p : BitVec 32) (s : State) : (emit k p s).pqOcc = s.pqOcc := rfl
@[simp] theorem emit_buttonState (k : EventKind) (p : BitVec 32) (s : State) : (emit k p s).buttonState = s.buttonState := rfl
@[simp] theorem emit_rotState (k : EventKind) (p : BitVec 32) (s : State) : (emit k p s).rotState = s.rotState := rfl
@[simp] theorem emit_rotCount (k : EventKind) (p : BitVec 32) (s : State) : (emit k p s).rotCount = s.rotCount := rfl
@[simp] theorem emit_hist1 (k : EventKind) (p : BitVec 32) (s : State) : (emit k p s).hist1 = s.hist1 := rfl
@[simp] theorem emit_hist2 (k : EventKind) (p : BitVec 32) (s : State) : (emit k p s).hist2 = s.hist2 := rfl
@[simp] theorem emit_syncFound (k : EventKind) (p : BitVec 32) (s : State) : (emit k p s).syncFound = s.syncFound := rfl
@[simp] theorem emit_idx (k : EventKind) (p : BitVec 32) (s : State) : (emit k p s).idx = s.idx := rfl
@[simp] theorem emit_slots (k : EventKind) (p : BitVec 32) (s : State) : (emit k p s).slots = s.slots := rfl
@[simp] theorem emit_base (k : EventKind) (p : BitVec 32) (s : State) : (emit k p s).base = s.base := rfl
@[simp] theorem emit_framePrev (k : EventKind) (p : BitVec 32) (s : State) : (emit k p s).framePrev = s.framePrev := rfl
@[simp] theorem emit_framePrevValid (k : EventKind) (p : BitVec 32) (s : State) : (emit k p s).framePrevValid = s.framePrevValid := rfl
@[simp] theorem emit_rfEnable (k : EventKind) (p : BitVec 32) (s : State) : (emit k p s).rfEnable = s.rfEnable := rfl
@[simp] theorem emit_out (k : EventKind) (p : BitVec 32) (s : State) : (emit k p s).out = s.out ++ [eventWord k p] := rfl
@[simp] theorem emit_nPush (k : EventKind) (p : BitVec 32) (s : State) : (emit k p s).nPush = s.nPush := rfl
@[simp] theorem emit_nPop (k : EventKind) (p : BitVec 32) (s : State) : (emit k p s).nPop = s.nPop := rfl
@[simp] theorem emit_draws (k : EventKind) (p : BitVec 32) (s : State) : (emit k p s).draws = s.draws := rfl
@[simp] theorem emit_moves (k : EventKind) (p : BitVec 32) (s : State) : (emit k p s).moves = s.moves := rfl

@[simp] theorem detectEdge_params (lvl : Bool) (s : State) : (detectEdge lvl s).params = s.params := rfl
@[simp] theorem detectEdge_mem (lvl : Bool) (s : State) : (detectEdge lvl s).mem = s.mem := rfl
@[simp] theorem detectEdge_wrBin (lvl : Bool) (s : State) : (detectEdge lvl s).wrBin = s.wrBin := rfl
@[simp] theorem detectEdge_wrGray (lvl : Bool) (s : State) : (detectEdge lvl s).wrGray = s.wrGray := rfl
@[simp] theorem detectEdge_rdBin (lvl : Bool) (s : State) : (detectEdge lvl s).rdBin = s.rdBin := rfl
@[simp] theorem detectEdge_rdGray (lvl : Bool) (s : State) : (detectEdge lvl s).rdGray = s.rdGray := rfl
@[simp] theorem detectEdge_wsync (lvl : Bool) (s : State) : (detectEdge lvl s).wsync = s.wsync := rfl
@[simp] theorem detectEdge_pinsPrev (lvl : Bool) (s : State) : (detectEdge lvl s).pinsPrev = s.pinsPrev := rfl
@[simp] theorem detectEdge_tcnt (lvl : Bool) (s : State) : (detectEdge lvl s).tcnt = s.tcnt := rfl
@[simp] theorem detectEdge_edgeSel (lvl : Bool) (s : State) : (detectEdge lvl s).edgeSel = if edgeCaptured lvl s then !s.edgeSel else s.edgeSel := rfl
@[simp] theorem detectEdge_lvlPrev (lvl : Bool) (s : State) : (detectEdge lvl s).lvlPrev = lvl := rfl
@[simp] theorem detectEdge_passOut (lvl : Bool) (s : State) : (detectEdge lvl s).passOut = if edgeCaptured lvl s && s.params.passEn then lvl ^^ s.params.passInv else s.passOut := rfl
@[simp] theorem detectEdge_pqOcc (lvl : Bool) (s : State) : (detectEdge lvl s).pqOcc = s.pqOcc := rfl
@[simp] theorem detectEdge_buttonState (lvl : Bool) (s : State) : (detectEdge lvl s).buttonState = s.buttonState := rfl
@[simp] theorem detectEdge_rotState (lvl : Bool) (s : State) : (detectEdge lvl s).rotState = s.rotState := rfl
@[simp] theorem detectEdge_rotCount (lvl : Bool) (s : State) : (detectEdge lvl s).rotCount = s.rotCount := rfl
@[simp] theorem detectEdge_hist1 (lvl : Bool) (s : State) : (detectEdge lvl s).hist1 = s.hist1 := rfl
@[simp] theorem detectEdge_hist2 (lvl : Bool) (s : State) : (detectEdge lvl s).hist2 = s.hist2 := rfl
@[simp] theorem detectEdge_syncFound (lvl : Bool) (s : State) : (detectEdge lvl s).syncFound = s.syncFound := rfl
@[simp] theorem detectEdge_idx (lvl : Bool) (s : State) : (detectEdge lvl s).idx = s.idx := rfl
@[simp] theorem detectEdge_slots (lvl : Bool) (s : State) : (detectEdge lvl s).slots = s.slots := rfl
@[simp] theorem detectEdge_base (lvl : Bool) (s : State) : (detectEdge lvl s).base = s.base := rfl
@[simp] theorem detectEdge_framePrev (lvl : Bool) (s : State) : (detectEdge lvl s).framePrev = s.framePrev := rfl
@[simp] theorem detectEdge_framePrevValid (lvl : Bool) (s : State) : (detectEdge lvl s).framePrevValid = s.framePrevValid := rfl
@[simp] theorem detectEdge_rfEnable (lvl : Bool) (s : State) : (detectEdge lvl s).rfEnable = s.rfEnable := rfl
@[simp] theorem detectEdge_out (lvl : Bool) (s : State) : (detectEdge lvl s).out = s.out := rfl
@[simp] theorem detectEdge_nPush (lvl : Bool) (s : State) : (detectEdge lvl s).nPush = s.nPush := rfl
@[simp] theorem detectEdge_nPop (lvl : Bool) (s : State) : (detectEdge lvl s).nPop = s.nPop := rfl
@[simp] theorem detectEdge_draws (lvl : Bool) (s : State) : (detectEdge lvl s).draws = s.draws := rfl
@[simp] theorem detectEdge_moves (lvl : Bool) (s : State) : (detectEdge lvl s).moves = s.moves := rfl

@[simp] theorem restartSearch_params (s : State) : (restartSearch s).params = s.params := rfl
@[simp] theorem restartSearch_mem (s : State) : (restartSearch s).mem = s.mem := rfl
@[simp] theorem restartSearch_wrBin (s : State) : (restartSearch s).wrBin = s.wrBin := rfl
@[simp] theorem restartSearch_wrGray (s : State) : (restartSearch s).wrGray = s.wrGray := rfl
@[simp] theorem restartSearch_rdBin (s : State) : (restartSearch s).rdBin = s.rdBin := rfl
@[simp] theorem restartSearch_rdGray (s : State) : (restartSearch s).rdGray = s.rdGray := rfl
@[simp] theorem restartSearch_wsync (s : State) : (restartSearch s).wsync = s.wsync := rfl
@[simp] theorem restartSearch_pinsPrev (s : State) : (restartSearch s).pinsPrev = s.pinsPrev := rfl
@[simp] theorem restartSearch_tcnt (s : State) : (restartSearch s).tcnt = s.tcnt := rfl
@[simp] theorem restartSearch_edgeSel (s : State) : (restartSearch s).edgeSel = s.edgeSel := rfl
@[simp] theorem restartSearch_lvlPrev (s : State) : (restartSearch s).lvlPrev = s.lvlPrev := rfl
@[simp] theorem restartSearch_passOut (s : State) : (restartSearch s).passOut = s.passOut := rfl
@[simp] theorem restartSearch_pqOcc (s : State) : (restartSearch s).pqOcc = s.pqOcc := rfl
@[simp] theorem restartSearch_buttonState (s : State) : (restartSearch s).buttonState = s.buttonState := rfl
@[simp] theorem restartSearch_rotState (s : State) : (restartSearch s).rotState = s.rotState := rfl
@[simp] theorem restartSearch_rotCount (s : State) : (restartSearch s).rotCount = s.rotCount := rfl
@[simp] theorem restartSearch_hist1 (s : State) : (restartSearch s).hist1 = s.hist1 := rfl
@[simp] theorem restartSearch_hist2 (s : State) : (restartSearch s).hist2 = s.hist2 := rfl
@[simp] theorem restartSearch_syncFound (s : State) : (restartSearch s).syncFound = false := rfl
@[simp] theorem restartSearch_idx (s : State) : (restartSearch s).idx = 0#5 := rfl
@[simp] theorem restartSearch_slots (s : State) : (restartSearch s).slots = s.slots := rfl
@[simp] theorem restartSearch_base (s : State) : (restartSearch s).base = s.base := rfl
@[simp] theorem restartSearch_framePrev (s : State) : (restartSearch s).framePrev = s.framePrev := rfl
@[simp] theorem restartSearch_framePrevValid (s : State) : (restartSearch s).framePrevValid = s.framePrevValid := rfl
@[simp] theorem restartSearch_rfEnable (s : State) : (restartSearch s).rfEnable = s.rfEnable := rfl
@[simp] theorem restartSearch_out (s : State) : (restartSearch s).out = s.out := rfl
@[simp] theorem restartSearch_nPush (s : State) : (restartSearch s).nPush = s.nPush := rfl
@[simp] theorem restartSearch_nPop (s : State) : (restartSearch s).nPop = s.nPop := rfl
@[simp] theorem restartSearch_draws (s : State) : (restartSearch s).draws = s.draws := rfl
@[simp] theorem restartSearch_moves (s : State) : (restartSearch s).moves = s.moves := rfl

end Sys2Proof.Machine
end

