-- ==== Sys2Proof/Laws/Memory.lean ====
section
/-!
SUPPORT. The laws of the FIFO memory: a read after a write, and that every operation that writes the memory keeps its
canonical form and its word width.
-/
namespace Sys2Proof.Machine

theorem memRead_memWrite_same (m : Memory) (k : Nat) (w : Slot) : memRead (memWrite m k w) k = some w := by
  induction m with
  | nil => simp [memWrite, memRead]
  | cons c m ih =>
    obtain ⟨j, u⟩ := c
    unfold memWrite
    split
    · simp [memRead]
    · split
      · simp [memRead]
      · rename_i hne
        simp [memRead, ih, Ne.symm hne]

theorem memRead_memWrite_other (m : Memory) (k j : Nat) (w : Slot) (h : j ≠ k) :
    memRead (memWrite m k w) j = memRead m j := by
  induction m with
  | nil => simp [memWrite, memRead, Ne.symm h]
  | cons c m ih =>
    obtain ⟨i, u⟩ := c
    unfold memWrite
    split
    · simp [memRead, Ne.symm h]
    · split
      · rename_i hki
        subst hki
        simp [memRead, Ne.symm h]
      · simp [memRead, ih]

theorem risesFrom_memWrite (m : Memory) (lo k : Nat) (w : Slot) (hlo : lo ≤ k) (hk : k < Config.slotIndices)
    (h : risesFrom lo m = true) : risesFrom lo (memWrite m k w) = true := by
  induction m generalizing lo with
  | nil => simp [memWrite, risesFrom, hlo, hk]
  | cons c m ih =>
    obtain ⟨j, u⟩ := c
    simp only [risesFrom, Bool.and_eq_true, decide_eq_true_eq] at h
    unfold memWrite
    split
    · rename_i hkj
      simp [risesFrom, hlo, hk, h.1.2, h.2, Nat.succ_le_of_lt hkj]
    · split
      · rename_i hkj
        subst hkj
        simp [risesFrom, h.1.1, h.1.2, h.2]
      · simp only [risesFrom, Bool.and_eq_true, decide_eq_true_eq]
        exact ⟨h.1, ih (j + 1) (by omega) h.2⟩

theorem memWrite_wf (m : Memory) (b : Byte) (w : Slot) (h : Memory.wf m = true) :
    Memory.wf (memWrite m b.toNat w) = true :=
  risesFrom_memWrite m 0 b.toNat w (Nat.zero_le _) b.isLt h

theorem mem_memWrite (m : Memory) (k : Nat) (w : Slot) (c : Nat × Slot) (h : c ∈ memWrite m k w) :
    c = (k, w) ∨ c ∈ m := by
  induction m with
  | nil => simpa [memWrite] using h
  | cons d m ih =>
    obtain ⟨j, u⟩ := d
    unfold memWrite at h
    split at h
    · simpa using h
    · split at h
      · simp only [List.mem_cons] at h ⊢
        exact h.imp id Or.inr
      · simp only [List.mem_cons] at h ⊢
        rcases h with h | h
        · exact Or.inr (Or.inl h)
        · exact (ih h).imp id Or.inr

theorem memRead_mem (m : Memory) (k : Nat) (w : Slot) (h : memRead m k = some w) : (k, w) ∈ m := by
  induction m with
  | nil => simp [memRead] at h
  | cons c m ih =>
    obtain ⟨j, u⟩ := c
    unfold memRead at h
    split at h
    · rename_i hj
      simp_all
    · exact List.mem_cons_of_mem _ (ih h)

theorem fitSlot_idem (v : Variant) (w : Slot) : fitSlot v (fitSlot v w) = fitSlot v w := by
  simp [fitSlot, BitVec.and_assoc]

theorem push_mem_wf (w : Slot) (s : State) (h : Memory.wf s.mem = true) : Memory.wf (push w s).mem = true :=
  memWrite_wf s.mem s.wrBin _ h

theorem pushAll_mem_wf (ws : List Slot) (s : State) (h : Memory.wf s.mem = true) :
    Memory.wf (pushAll ws s).mem = true := by
  induction ws generalizing s with
  | nil => exact h
  | cons w ws ih => exact ih (push w s) (push_mem_wf w s h)

theorem holdSample_mem_wf (w : Slot) (s : State) (h : Memory.wf s.mem = true) :
    Memory.wf (holdSample w s).mem = true :=
  memWrite_wf s.mem s.rdBin _ h

theorem reset_mem_wf : Memory.wf State.reset.mem = true := rfl

end Sys2Proof.Machine
end

