-- ==== Sys2Proof/Laws/Ops.lean ====
section
/-!
SUPPORT. What each shared operation can do, said once: `push` in a row, the slot read, `pop`, the counter, the answer of a
meaning, and what the decoders and host steps leave alone.
-/
namespace Sys2Proof.Machine

theorem pushAll_nil (s : State) : pushAll [] s = s := rfl

theorem pushAll_cons (w : Slot) (ws : List Slot) (s : State) : pushAll (w :: ws) s = pushAll ws (push w s) := rfl

theorem pushAll_append (vs ws : List Slot) (s : State) : pushAll (vs ++ ws) s = pushAll ws (pushAll vs s) :=
  List.foldl_append ..

/-- A field that `push` keeps is kept by pushing a list. -/
theorem pushAll_unchanged {α : Type} (f : State → α) (h : ∀ w s, f (push w s) = f s) (ws : List Slot) (s : State) :
    f (pushAll ws s) = f s := by
  induction ws generalizing s with
  | nil => rfl
  | cons w ws ih => exact (ih (push w s)).trans (h w s)

@[simp] theorem pushAll_nPush (ws : List Slot) (s : State) : (pushAll ws s).nPush = s.nPush + ws.length := by
  induction ws generalizing s with
  | nil => rfl
  | cons w ws ih => simp only [pushAll_cons, ih, push_nPush, List.length_cons]; omega

/-- The two cases of a slot read: the listed word, with nothing changed, or a draw. -/
theorem readSlot_cases (s : State) :
    (collision s = false ∧ ∃ w, memRead s.mem s.rdBin.toNat = some w ∧ readSlot s = (w, s)) ∨
      ((collision s = true ∨ memRead s.mem s.rdBin.toNat = none) ∧ readSlot s = draw s) := by
  unfold readSlot
  cases collision s with
  | true => simp
  | false => cases memRead s.mem s.rdBin.toNat <;> simp

/-- A field that `draw` keeps is kept by a slot read. -/
theorem readSlot_unchanged {α : Type} (f : State → α) (h : ∀ s, f (draw s).2 = f s) (s : State) :
    f (readSlot s).2 = f s := by
  rcases readSlot_cases s with ⟨_, w, _, hw⟩ | ⟨_, hd⟩
  · rw [hw]
  · rw [hd, h]

@[simp] theorem pushAll_params (ws : List Slot) (s : State) : (pushAll ws s).params = s.params := pushAll_unchanged (fun t => t.params) (fun _ _ => rfl) ws s
@[simp] theorem pushAll_rdBin (ws : List Slot) (s : State) : (pushAll ws s).rdBin = s.rdBin := pushAll_unchanged (fun t => t.rdBin) (fun _ _ => rfl) ws s
@[simp] theorem pushAll_rdGray (ws : List Slot) (s : State) : (pushAll ws s).rdGray = s.rdGray := pushAll_unchanged (fun t => t.rdGray) (fun _ _ => rfl) ws s
@[simp] theorem pushAll_wsync (ws : List Slot) (s : State) : (pushAll ws s).wsync = s.wsync := pushAll_unchanged (fun t => t.wsync) (fun _ _ => rfl) ws s
@[simp] theorem pushAll_pinsPrev (ws : List Slot) (s : State) : (pushAll ws s).pinsPrev = s.pinsPrev := pushAll_unchanged (fun t => t.pinsPrev) (fun _ _ => rfl) ws s
@[simp] theorem pushAll_tcnt (ws : List Slot) (s : State) : (pushAll ws s).tcnt = s.tcnt := pushAll_unchanged (fun t => t.tcnt) (fun _ _ => rfl) ws s
@[simp] theorem pushAll_edgeSel (ws : List Slot) (s : State) : (pushAll ws s).edgeSel = s.edgeSel := pushAll_unchanged (fun t => t.edgeSel) (fun _ _ => rfl) ws s
@[simp] theorem pushAll_lvlPrev (ws : List Slot) (s : State) : (pushAll ws s).lvlPrev = s.lvlPrev := pushAll_unchanged (fun t => t.lvlPrev) (fun _ _ => rfl) ws s
@[simp] theorem pushAll_passOut (ws : List Slot) (s : State) : (pushAll ws s).passOut = s.passOut := pushAll_unchanged (fun t => t.passOut) (fun _ _ => rfl) ws s
@[simp] theorem pushAll_pqOcc (ws : List Slot) (s : State) : (pushAll ws s).pqOcc = s.pqOcc := pushAll_unchanged (fun t => t.pqOcc) (fun _ _ => rfl) ws s
@[simp] theorem pushAll_buttonState (ws : List Slot) (s : State) : (pushAll ws s).buttonState = s.buttonState := pushAll_unchanged (fun t => t.buttonState) (fun _ _ => rfl) ws s
@[simp] theorem pushAll_rotState (ws : List Slot) (s : State) : (pushAll ws s).rotState = s.rotState := pushAll_unchanged (fun t => t.rotState) (fun _ _ => rfl) ws s
@[simp] theorem pushAll_rotCount (ws : List Slot) (s : State) : (pushAll ws s).rotCount = s.rotCount := pushAll_unchanged (fun t => t.rotCount) (fun _ _ => rfl) ws s
@[simp] theorem pushAll_hist1 (ws : List Slot) (s : State) : (pushAll ws s).hist1 = s.hist1 := pushAll_unchanged (fun t => t.hist1) (fun _ _ => rfl) ws s
@[simp] theorem pushAll_hist2 (ws : List Slot) (s : State) : (pushAll ws s).hist2 = s.hist2 := pushAll_unchanged (fun t => t.hist2) (fun _ _ => rfl) ws s
@[simp] theorem pushAll_syncFound (ws : List Slot) (s : State) : (pushAll ws s).syncFound = s.syncFound := pushAll_unchanged (fun t => t.syncFound) (fun _ _ => rfl) ws s
@[simp] theorem pushAll_idx (ws : List Slot) (s : State) : (pushAll ws s).idx = s.idx := pushAll_unchanged (fun t => t.idx) (fun _ _ => rfl) ws s
@[simp] theorem pushAll_slots (ws : List Slot) (s : State) : (pushAll ws s).slots = s.slots := pushAll_unchanged (fun t => t.slots) (fun _ _ => rfl) ws s
@[simp] theorem pushAll_base (ws : List Slot) (s : State) : (pushAll ws s).base = s.base := pushAll_unchanged (fun t => t.base) (fun _ _ => rfl) ws s
@[simp] theorem pushAll_framePrev (ws : List Slot) (s : State) : (pushAll ws s).framePrev = s.framePrev := pushAll_unchanged (fun t => t.framePrev) (fun _ _ => rfl) ws s
@[simp] theorem pushAll_framePrevValid (ws : List Slot) (s : State) : (pushAll ws s).framePrevValid = s.framePrevValid := pushAll_unchanged (fun t => t.framePrevValid) (fun _ _ => rfl) ws s
@[simp] theorem pushAll_rfEnable (ws : List Slot) (s : State) : (pushAll ws s).rfEnable = s.rfEnable := pushAll_unchanged (fun t => t.rfEnable) (fun _ _ => rfl) ws s
@[simp] theorem pushAll_out (ws : List Slot) (s : State) : (pushAll ws s).out = s.out := pushAll_unchanged (fun t => t.out) (fun _ _ => rfl) ws s
@[simp] theorem pushAll_nPop (ws : List Slot) (s : State) : (pushAll ws s).nPop = s.nPop := pushAll_unchanged (fun t => t.nPop) (fun _ _ => rfl) ws s
@[simp] theorem pushAll_draws (ws : List Slot) (s : State) : (pushAll ws s).draws = s.draws := pushAll_unchanged (fun t => t.draws) (fun _ _ => rfl) ws s
@[simp] theorem pushAll_moves (ws : List Slot) (s : State) : (pushAll ws s).moves = s.moves := pushAll_unchanged (fun t => t.moves) (fun _ _ => rfl) ws s

@[simp] theorem readSlot_params (s : State) : (readSlot s).2.params = s.params := readSlot_unchanged (fun t => t.params) (fun _ => rfl) s
@[simp] theorem readSlot_mem (s : State) : (readSlot s).2.mem = s.mem := readSlot_unchanged (fun t => t.mem) (fun _ => rfl) s
@[simp] theorem readSlot_wrBin (s : State) : (readSlot s).2.wrBin = s.wrBin := readSlot_unchanged (fun t => t.wrBin) (fun _ => rfl) s
@[simp] theorem readSlot_wrGray (s : State) : (readSlot s).2.wrGray = s.wrGray := readSlot_unchanged (fun t => t.wrGray) (fun _ => rfl) s
@[simp] theorem readSlot_rdBin (s : State) : (readSlot s).2.rdBin = s.rdBin := readSlot_unchanged (fun t => t.rdBin) (fun _ => rfl) s
@[simp] theorem readSlot_rdGray (s : State) : (readSlot s).2.rdGray = s.rdGray := readSlot_unchanged (fun t => t.rdGray) (fun _ => rfl) s
@[simp] theorem readSlot_wsync (s : State) : (readSlot s).2.wsync = s.wsync := readSlot_unchanged (fun t => t.wsync) (fun _ => rfl) s
@[simp] theorem readSlot_pinsPrev (s : State) : (readSlot s).2.pinsPrev = s.pinsPrev := readSlot_unchanged (fun t => t.pinsPrev) (fun _ => rfl) s
@[simp] theorem readSlot_tcnt (s : State) : (readSlot s).2.tcnt = s.tcnt := readSlot_unchanged (fun t => t.tcnt) (fun _ => rfl) s
@[simp] theorem readSlot_edgeSel (s : State) : (readSlot s).2.edgeSel = s.edgeSel := readSlot_unchanged (fun t => t.edgeSel) (fun _ => rfl) s
@[simp] theorem readSlot_lvlPrev (s : State) : (readSlot s).2.lvlPrev = s.lvlPrev := readSlot_unchanged (fun t => t.lvlPrev) (fun _ => rfl) s
@[simp] theorem readSlot_passOut (s : State) : (readSlot s).2.passOut = s.passOut := readSlot_unchanged (fun t => t.passOut) (fun _ => rfl) s
@[simp] theorem readSlot_pqOcc (s : State) : (readSlot s).2.pqOcc = s.pqOcc := readSlot_unchanged (fun t => t.pqOcc) (fun _ => rfl) s
@[simp] theorem readSlot_buttonState (s : State) : (readSlot s).2.buttonState = s.buttonState := readSlot_unchanged (fun t => t.buttonState) (fun _ => rfl) s
@[simp] theorem readSlot_rotState (s : State) : (readSlot s).2.rotState = s.rotState := readSlot_unchanged (fun t => t.rotState) (fun _ => rfl) s
@[simp] theorem readSlot_rotCount (s : State) : (readSlot s).2.rotCount = s.rotCount := readSlot_unchanged (fun t => t.rotCount) (fun _ => rfl) s
@[simp] theorem readSlot_hist1 (s : State) : (readSlot s).2.hist1 = s.hist1 := readSlot_unchanged (fun t => t.hist1) (fun _ => rfl) s
@[simp] theorem readSlot_hist2 (s : State) : (readSlot s).2.hist2 = s.hist2 := readSlot_unchanged (fun t => t.hist2) (fun _ => rfl) s
@[simp] theorem readSlot_syncFound (s : State) : (readSlot s).2.syncFound = s.syncFound := readSlot_unchanged (fun t => t.syncFound) (fun _ => rfl) s
@[simp] theorem readSlot_idx (s : State) : (readSlot s).2.idx = s.idx := readSlot_unchanged (fun t => t.idx) (fun _ => rfl) s
@[simp] theorem readSlot_slots (s : State) : (readSlot s).2.slots = s.slots := readSlot_unchanged (fun t => t.slots) (fun _ => rfl) s
@[simp] theorem readSlot_base (s : State) : (readSlot s).2.base = s.base := readSlot_unchanged (fun t => t.base) (fun _ => rfl) s
@[simp] theorem readSlot_framePrev (s : State) : (readSlot s).2.framePrev = s.framePrev := readSlot_unchanged (fun t => t.framePrev) (fun _ => rfl) s
@[simp] theorem readSlot_framePrevValid (s : State) : (readSlot s).2.framePrevValid = s.framePrevValid := readSlot_unchanged (fun t => t.framePrevValid) (fun _ => rfl) s
@[simp] theorem readSlot_rfEnable (s : State) : (readSlot s).2.rfEnable = s.rfEnable := readSlot_unchanged (fun t => t.rfEnable) (fun _ => rfl) s
@[simp] theorem readSlot_out (s : State) : (readSlot s).2.out = s.out := readSlot_unchanged (fun t => t.out) (fun _ => rfl) s
@[simp] theorem readSlot_nPush (s : State) : (readSlot s).2.nPush = s.nPush := readSlot_unchanged (fun t => t.nPush) (fun _ => rfl) s
@[simp] theorem readSlot_nPop (s : State) : (readSlot s).2.nPop = s.nPop := readSlot_unchanged (fun t => t.nPop) (fun _ => rfl) s
@[simp] theorem readSlot_moves (s : State) : (readSlot s).2.moves = s.moves := readSlot_unchanged (fun t => t.moves) (fun _ => rfl) s

@[simp] theorem pop_params (s : State) : (pop s).2.params = s.params := readSlot_params s
@[simp] theorem pop_mem (s : State) : (pop s).2.mem = s.mem := readSlot_mem s
@[simp] theorem pop_wrBin (s : State) : (pop s).2.wrBin = s.wrBin := readSlot_wrBin s
@[simp] theorem pop_wrGray (s : State) : (pop s).2.wrGray = s.wrGray := readSlot_wrGray s
@[simp] theorem pop_wsync (s : State) : (pop s).2.wsync = s.wsync := readSlot_wsync s
@[simp] theorem pop_pinsPrev (s : State) : (pop s).2.pinsPrev = s.pinsPrev := readSlot_pinsPrev s
@[simp] theorem pop_tcnt (s : State) : (pop s).2.tcnt = s.tcnt := readSlot_tcnt s
@[simp] theorem pop_edgeSel (s : State) : (pop s).2.edgeSel = s.edgeSel := readSlot_edgeSel s
@[simp] theorem pop_lvlPrev (s : State) : (pop s).2.lvlPrev = s.lvlPrev := readSlot_lvlPrev s
@[simp] theorem pop_passOut (s : State) : (pop s).2.passOut = s.passOut := readSlot_passOut s
@[simp] theorem pop_pqOcc (s : State) : (pop s).2.pqOcc = s.pqOcc := readSlot_pqOcc s
@[simp] theorem pop_buttonState (s : State) : (pop s).2.buttonState = s.buttonState := readSlot_buttonState s
@[simp] theorem pop_rotState (s : State) : (pop s).2.rotState = s.rotState := readSlot_rotState s
@[simp] theorem pop_rotCount (s : State) : (pop s).2.rotCount = s.rotCount := readSlot_rotCount s
@[simp] theorem pop_hist1 (s : State) : (pop s).2.hist1 = s.hist1 := readSlot_hist1 s
@[simp] theorem pop_hist2 (s : State) : (pop s).2.hist2 = s.hist2 := readSlot_hist2 s
@[simp] theorem pop_syncFound (s : State) : (pop s).2.syncFound = s.syncFound := readSlot_syncFound s
@[simp] theorem pop_idx (s : State) : (pop s).2.idx = s.idx := readSlot_idx s
@[simp] theorem pop_slots (s : State) : (pop s).2.slots = s.slots := readSlot_slots s
@[simp] theorem pop_base (s : State) : (pop s).2.base = s.base := readSlot_base s
@[simp] theorem pop_framePrev (s : State) : (pop s).2.framePrev = s.framePrev := readSlot_framePrev s
@[simp] theorem pop_framePrevValid (s : State) : (pop s).2.framePrevValid = s.framePrevValid := readSlot_framePrevValid s
@[simp] theorem pop_rfEnable (s : State) : (pop s).2.rfEnable = s.rfEnable := readSlot_rfEnable s
@[simp] theorem pop_out (s : State) : (pop s).2.out = s.out := readSlot_out s
@[simp] theorem pop_nPush (s : State) : (pop s).2.nPush = s.nPush := readSlot_nPush s
@[simp] theorem pop_moves (s : State) : (pop s).2.moves = s.moves := readSlot_moves s

@[simp] theorem countTick_params (tick : Bool) (s : State) : (countTick tick s).params = s.params := by cases tick <;> rfl
@[simp] theorem countTick_mem (tick : Bool) (s : State) : (countTick tick s).mem = s.mem := by cases tick <;> rfl
@[simp] theorem countTick_wrBin (tick : Bool) (s : State) : (countTick tick s).wrBin = s.wrBin := by cases tick <;> rfl
@[simp] theorem countTick_wrGray (tick : Bool) (s : State) : (countTick tick s).wrGray = s.wrGray := by cases tick <;> rfl
@[simp] theorem countTick_rdBin (tick : Bool) (s : State) : (countTick tick s).rdBin = s.rdBin := by cases tick <;> rfl
@[simp] theorem countTick_rdGray (tick : Bool) (s : State) : (countTick tick s).rdGray = s.rdGray := by cases tick <;> rfl
@[simp] theorem countTick_wsync (tick : Bool) (s : State) : (countTick tick s).wsync = s.wsync := by cases tick <;> rfl
@[simp] theorem countTick_pinsPrev (tick : Bool) (s : State) : (countTick tick s).pinsPrev = s.pinsPrev := by cases tick <;> rfl
@[simp] theorem countTick_edgeSel (tick : Bool) (s : State) : (countTick tick s).edgeSel = s.edgeSel := by cases tick <;> rfl
@[simp] theorem countTick_lvlPrev (tick : Bool) (s : State) : (countTick tick s).lvlPrev = s.lvlPrev := by cases tick <;> rfl
@[simp] theorem countTick_passOut (tick : Bool) (s : State) : (countTick tick s).passOut = s.passOut := by cases tick <;> rfl
@[simp] theorem countTick_pqOcc (tick : Bool) (s : State) : (countTick tick s).pqOcc = s.pqOcc := by cases tick <;> rfl
@[simp] theorem countTick_buttonState (tick : Bool) (s : State) : (countTick tick s).buttonState = s.buttonState := by cases tick <;> rfl
@[simp] theorem countTick_rotState (tick : Bool) (s : State) : (countTick tick s).rotState = s.rotState := by cases tick <;> rfl
@[simp] theorem countTick_rotCount (tick : Bool) (s : State) : (countTick tick s).rotCount = s.rotCount := by cases tick <;> rfl
@[simp] theorem countTick_hist1 (tick : Bool) (s : State) : (countTick tick s).hist1 = s.hist1 := by cases tick <;> rfl
@[simp] theorem countTick_hist2 (tick : Bool) (s : State) : (countTick tick s).hist2 = s.hist2 := by cases tick <;> rfl
@[simp] theorem countTick_syncFound (tick : Bool) (s : State) : (countTick tick s).syncFound = s.syncFound := by cases tick <;> rfl
@[simp] theorem countTick_idx (tick : Bool) (s : State) : (countTick tick s).idx = s.idx := by cases tick <;> rfl
@[simp] theorem countTick_slots (tick : Bool) (s : State) : (countTick tick s).slots = s.slots := by cases tick <;> rfl
@[simp] theorem countTick_base (tick : Bool) (s : State) : (countTick tick s).base = s.base := by cases tick <;> rfl
@[simp] theorem countTick_framePrev (tick : Bool) (s : State) : (countTick tick s).framePrev = s.framePrev := by cases tick <;> rfl
@[simp] theorem countTick_framePrevValid (tick : Bool) (s : State) : (countTick tick s).framePrevValid = s.framePrevValid := by cases tick <;> rfl
@[simp] theorem countTick_rfEnable (tick : Bool) (s : State) : (countTick tick s).rfEnable = s.rfEnable := by cases tick <;> rfl
@[simp] theorem countTick_out (tick : Bool) (s : State) : (countTick tick s).out = s.out := by cases tick <;> rfl
@[simp] theorem countTick_nPush (tick : Bool) (s : State) : (countTick tick s).nPush = s.nPush := by cases tick <;> rfl
@[simp] theorem countTick_nPop (tick : Bool) (s : State) : (countTick tick s).nPop = s.nPop := by cases tick <;> rfl
@[simp] theorem countTick_draws (tick : Bool) (s : State) : (countTick tick s).draws = s.draws := by cases tick <;> rfl
@[simp] theorem countTick_moves (tick : Bool) (s : State) : (countTick tick s).moves = s.moves := by cases tick <;> rfl
@[simp] theorem pop_rdBin (s : State) : (pop s).2.rdBin = cursorSucc s.params s.rdBin := by simp [pop]

@[simp] theorem pop_rdGray (s : State) : (pop s).2.rdGray = bin2gray (cursorSucc s.params s.rdBin) := by simp [pop]

@[simp] theorem pop_nPop (s : State) : (pop s).2.nPop = s.nPop + 1 := by simp [pop]

@[simp] theorem countTick_tcnt (tick : Bool) (s : State) :
    (countTick tick s).tcnt = if tick then countSucc s.params s.tcnt else s.tcnt := by
  cases tick <;> rfl

/-- A meaning answers a next state exactly when its row lists the variant. -/
theorem inVariant_next (listed : Bool) (t u : State) : inVariant listed t = .next u ↔ listed = true ∧ t = u := by
  cases listed <;> simp [inVariant]

/-- An instruction that answers a next state is one its row lists for the instance's variant, with legal operands. -/
theorem exec_next_listed (i : Instr) (s t : State) (h : exec i s = .next t) :
    i.listedIn s.params.variant = true ∧ i.operandsLegalIn s.params.variant = true := by
  cases i with
  | reset init =>
    simp only [exec, execReset] at h
    split at h
    · exact ⟨rfl, by assumption⟩
    · cases h
  | sync => exact ⟨rfl, rfl⟩
  | cstep => exact ⟨rfl, rfl⟩
  | _ => exact ⟨((inVariant_next _ _ _).1 h).1, rfl⟩

theorem SameProducer.refl (s : State) : SameProducer s s := by constructor <;> rfl

theorem SameProducer.trans {s t u : State} (h : SameProducer s t) (k : SameProducer t u) : SameProducer s u := by
  cases h; cases k; constructor <;> simp_all

theorem SameConsumer.refl (s : State) : SameConsumer s s := by constructor <;> rfl

theorem SameConsumer.trans {s t u : State} (h : SameConsumer s t) (k : SameConsumer t u) : SameConsumer s u := by
  cases h; cases k; constructor <;> simp_all

/-- What no decoder step changes: producer-domain state, the FIFO's read side, the free values and the moves. -/
structure DecoderFrame (s t : State) : Prop where
  producer : SameProducer s t
  rdBin : t.rdBin = s.rdBin
  rdGray : t.rdGray = s.rdGray
  wsync : t.wsync = s.wsync
  rfEnable : t.rfEnable = s.rfEnable
  nPop : t.nPop = s.nPop
  draws : t.draws = s.draws
  moves : t.moves = s.moves

theorem DecoderFrame.refl (s : State) : DecoderFrame s s := ⟨.refl s, rfl, rfl, rfl, rfl, rfl, rfl, rfl⟩

theorem DecoderFrame.trans {s t u : State} (h : DecoderFrame s t) (k : DecoderFrame t u) : DecoderFrame s u :=
  ⟨h.producer.trans k.producer, by rw [k.rdBin, h.rdBin], by rw [k.rdGray, h.rdGray], by rw [k.wsync, h.wsync],
    by rw [k.rfEnable, h.rfEnable], by rw [k.nPop, h.nPop], by rw [k.draws, h.draws], by rw [k.moves, h.moves]⟩

theorem emit_frame (k : EventKind) (p : BitVec 32) (s : State) : DecoderFrame s (emit k p s) := by
  constructor
  · constructor <;> rfl
  all_goals rfl

theorem classifyButton_frame (btn : Bool) (s : State) : DecoderFrame s (classifyButton btn s) := by
  unfold classifyButton
  split
  · exact .refl s
  · constructor
    · constructor <;> rfl
    all_goals rfl

theorem restCheck_frame (s : State) : DecoderFrame s (restCheck s) := by
  unfold restCheck
  split
  · constructor
    · constructor <;> rfl
    all_goals rfl
  · split
    · constructor
      · constructor <;> rfl
      all_goals rfl
    · exact .refl s

theorem rotaryDecode_frame (pair : BitVec 2) (s : State) : DecoderFrame s (rotaryDecode pair s) := by
  have shifted : DecoderFrame s { s with rotState := shiftPair s.rotState pair } := by
    constructor
    · constructor <;> rfl
    all_goals rfl
  unfold rotaryDecode
  split
  · exact .refl s
  · dsimp only
    split
    · exact shifted.trans (restCheck_frame _)
    · exact shifted

theorem encStep_frame (snap : Byte) (s : State) : DecoderFrame s (encStep snap s) :=
  (classifyButton_frame _ s).trans (rotaryDecode_frame _ _)

theorem irStep_frame (cur : Ts) (s : State) : DecoderFrame s (irStep cur s) := by
  unfold irStep
  split
  all_goals
    constructor
    · constructor <;> rfl
    all_goals rfl

theorem restartSearch_frame (s : State) : DecoderFrame s (restartSearch s) := by
  constructor
  · constructor <;> rfl
  all_goals rfl

theorem completeFrame_frame (s : State) : DecoderFrame s (completeFrame s) := by
  unfold completeFrame
  dsimp only
  split
  all_goals
    constructor
    · constructor <;> rfl
    all_goals rfl

theorem rfStep_frame (pol : Bool) (ts : Ts) (s : State) : DecoderFrame s (rfStep pol ts s) := by
  have filled : DecoderFrame s (fillSlot ts s) := by
    constructor
    · constructor <;> rfl
    all_goals rfl
  unfold rfStep
  split
  · split
    · exact .refl s
    · split
      · split
        · constructor
          · constructor <;> rfl
          all_goals rfl
        · unfold captureFall
          dsimp only
          split
          · exact filled.trans (completeFrame_frame _)
          · exact filled
      · split
        · unfold searchRise
          split
          all_goals
            constructor
            · constructor <;> rfl
            all_goals rfl
        · exact .refl s
  · exact .refl s

theorem decoderStep_frame (w : Slot) (s : State) : DecoderFrame s (decoderStep w s) := by
  unfold decoderStep
  split
  · exact encStep_frame _ s
  · exact irStep_frame _ s
  · exact rfStep_frame _ _ s

theorem pop_producer (s : State) : SameProducer s (pop s).2 := by constructor <;> simp

/-- The consumer state is not touched by pushing. -/
theorem pushAll_consumer (ws : List Slot) (s : State) : SameConsumer s (pushAll ws s) := by constructor <;> simp

/-- `PIN` writes `pins_prev` and pushes; nothing of the consumer's. -/
theorem pinStep_consumer (v : Byte) (s : State) : SameConsumer s (pinStep v s) := by
  constructor <;> simp [pinStep]

/-- `PSTEP` writes capture registers and pushes; nothing of the consumer's. -/
theorem pstepStep_consumer (lvl tick : Bool) (s : State) : SameConsumer s (pstepStep lvl tick s) := by
  constructor <;> simp [pstepStep]

/-- A decoder step's `out` is the one before with events after it. -/
theorem emit_prefix (k : EventKind) (p : BitVec 32) (s : State) : s.out <+: (emit k p s).out :=
  List.prefix_append _ _

end Sys2Proof.Machine
end

