-- ==== Sys2Proof/Laws/Cursor.lean ====
section
/-!
SUPPORT. The laws of the cursors modulo `DEPTH`: what the masked 8-bit arithmetic is as arithmetic modulo `DEPTH`, and the
gray code of a cursor (00_scope.md R10, R13, 40_fifo.md R130, R135, R136).
-/
namespace Sys2Proof

/-- Two counts less than one lap apart differ modulo the lap. -/
theorem mod_ne_of_lt_of_lt_add {a b d : Nat} (hab : a < b) (hlap : b < a + d) : a % d ≠ b % d := by
  intro h
  have hsub := Nat.sub_mod_eq_zero_of_mod_eq h.symm
  rw [Nat.mod_eq_of_lt (by omega)] at hsub
  omega

theorem Params.depth_pos (p : Params) : 0 < p.depth := Nat.two_pow_pos p.ptrW

theorem Params.depth_le (p : Params) (hp : p.ptrW ≤ 8) : p.depth ≤ 256 := Nat.pow_le_pow_right (by decide) hp

theorem Params.depth_dvd (p : Params) (hp : p.ptrW ≤ 8) : p.depth ∣ 256 := Nat.pow_dvd_pow 2 hp

namespace Machine

/-- Masking with the cursor bits is reducing modulo `DEPTH`. -/
theorem and_ptrMask_toNat (p : Params) (b : Byte) (hp : p.ptrW ≤ 8) : (b &&& p.ptrMask).toNat = b.toNat % p.depth := by
  have hle := p.depth_le hp
  have hpos := p.depth_pos
  rw [BitVec.toNat_and, Params.ptrMask, BitVec.toNat_ofNat, Nat.mod_eq_of_lt (by omega), Params.depth,
    Nat.and_two_pow_sub_one_eq_mod]

theorem cursorSucc_toNat (p : Params) (b : Byte) (hp : p.ptrW ≤ 8) :
    (cursorSucc p b).toNat = (b.toNat + 1) % p.depth := by
  rw [cursorSucc, and_ptrMask_toNat p _ hp, BitVec.toNat_add]
  exact Nat.mod_mod_of_dvd _ (p.depth_dvd hp)

/-- A cursor that advanced is a slot number, whatever the parameters. -/
theorem cursorSucc_lt (p : Params) (b : Byte) : (cursorSucc p b).toNat < p.depth := by
  have hpos := p.depth_pos
  have hmask : p.ptrMask.toNat ≤ p.depth - 1 := by
    rw [Params.ptrMask, BitVec.toNat_ofNat]
    exact Nat.mod_le _ _
  have hand : (cursorSucc p b).toNat ≤ p.ptrMask.toNat := by
    rw [cursorSucc, BitVec.toNat_and]
    exact Nat.and_le_right
  omega

theorem cursorDist_lt (p : Params) (a b : Byte) (hp : p.ptrW ≤ 8) : cursorDist p a b < p.depth := by
  rw [cursorDist, and_ptrMask_toNat p _ hp]
  exact Nat.mod_lt _ p.depth_pos

theorem cursorOf_toNat (p : Params) (n : Nat) (hp : p.ptrW ≤ 8) : (cursorOf p n).toNat = n % p.depth := by
  have hlt := Nat.mod_lt n p.depth_pos
  have hle := p.depth_le hp
  rw [cursorOf, BitVec.toNat_ofNat, Nat.mod_eq_of_lt (by omega)]

/-- Two counts have one cursor exactly when they agree modulo `DEPTH`. -/
theorem cursorOf_eq_iff (p : Params) (a b : Nat) (hp : p.ptrW ≤ 8) :
    cursorOf p a = cursorOf p b ↔ a % p.depth = b % p.depth := by
  rw [BitVec.toNat_eq, cursorOf_toNat p a hp, cursorOf_toNat p b hp]

theorem cursorSucc_cursorOf (p : Params) (n : Nat) (hp : p.ptrW ≤ 8) :
    cursorSucc p (cursorOf p n) = cursorOf p (n + 1) := by
  rw [BitVec.toNat_eq, cursorSucc_toNat p _ hp, cursorOf_toNat p _ hp, cursorOf_toNat p _ hp, Nat.mod_add_mod]

/-- The distance between two cursors in range, as the natural number it is. -/
theorem cursorDist_eq (p : Params) (a b : Byte) (hp : p.ptrW ≤ 8) (hb : b.toNat < p.depth) :
    cursorDist p a b = (a.toNat + p.depth - b.toNat) % p.depth := by
  obtain ⟨k, hk⟩ := p.depth_dvd hp
  have hlt := b.isLt
  obtain ⟨j, rfl⟩ : ∃ j, k = j + 1 := Nat.exists_eq_succ_of_ne_zero (fun h0 => by simp [h0] at hk)
  have hsplit : 256 = p.depth + p.depth * j := by rw [hk, Nat.mul_succ, Nat.add_comm]
  rw [cursorDist, and_ptrMask_toNat p _ hp, BitVec.toNat_sub, Nat.mod_mod_of_dvd _ (p.depth_dvd hp),
    show 2 ^ 8 - b.toNat + a.toNat = a.toNat + p.depth - b.toNat + p.depth * j by omega,
    Nat.add_mul_mod_self_left]

/-- How far one count is ahead of another within one lap. -/
theorem cursorDist_cursorOf (p : Params) (a b : Nat) (hp : p.ptrW ≤ 8) (hle : b ≤ a) (hlap : a < b + p.depth) :
    cursorDist p (cursorOf p a) (cursorOf p b) = a - b := by
  have hpos := p.depth_pos
  have hb := cursorOf_toNat p b hp
  rw [cursorDist_eq p _ _ hp (by rw [hb]; exact Nat.mod_lt _ hpos), cursorOf_toNat p a hp, hb]
  have ha := Nat.mod_add_div a p.depth
  have hbd := Nat.mod_add_div b p.depth
  have hbl := Nat.mod_lt b hpos
  obtain ⟨d, rfl⟩ := Nat.exists_eq_add_of_le hle
  rw [show b + d - b = d by omega]
  have hmod : (b + d) % p.depth = (b % p.depth + d) % p.depth := (Nat.mod_add_mod b p.depth d).symm
  rw [hmod]
  rcases Nat.lt_or_ge (b % p.depth + d) p.depth with hlt | hge
  · rw [Nat.mod_eq_of_lt hlt, show b % p.depth + d + p.depth - b % p.depth = d + p.depth by omega,
      Nat.add_mod_right, Nat.mod_eq_of_lt (by omega)]
  · have hsub : (b % p.depth + d) % p.depth = b % p.depth + d - p.depth := by
      rw [Nat.mod_eq_sub_mod hge, Nat.mod_eq_of_lt (by omega)]
    rw [hsub,
      show b % p.depth + d - p.depth + p.depth - b % p.depth = d by omega, Nat.mod_eq_of_lt (by omega)]

theorem gray2bin_bin2gray (b : Byte) : gray2bin (bin2gray b) = b := by
  revert b
  decide

theorem bin2gray_inj {a b : Byte} : bin2gray a = bin2gray b ↔ a = b :=
  ⟨fun h => by rw [← gray2bin_bin2gray a, h, gray2bin_bin2gray], fun h => by rw [h]⟩

theorem grayOf_eq_iff (p : Params) (a b : Nat) (hp : p.ptrW ≤ 8) :
    grayOf p a = grayOf p b ↔ a % p.depth = b % p.depth := by
  rw [grayOf, grayOf, bin2gray_inj, cursorOf_eq_iff p a b hp]

end Machine

end Sys2Proof
end

