-- ==== Sys2Proof/Laws/Encoding.lean ====
section
/-!
SUPPORT. The fields of the encoded words: what each field extracts from a stimulus, sample or event word.
-/
namespace Sys2Proof

/-- A field that lies in the high part of a concatenation. -/
theorem extract_append_high {m n : Nat} (a : BitVec m) (b : BitVec n) (lo len : Nat) (h : n ≤ lo) :
    (a ++ b).extractLsb' lo len = a.extractLsb' (lo - n) len := by
  apply BitVec.eq_of_getLsbD_eq
  intro i hi
  rw [BitVec.getLsbD_extractLsb', BitVec.getLsbD_extractLsb', BitVec.getLsbD_append]
  simp only [hi, decide_true, Bool.true_and]
  rw [if_neg (by omega)]
  congr 1
  omega

/-- A field that lies in the low part of a concatenation. -/
theorem extract_append_low {m n : Nat} (a : BitVec m) (b : BitVec n) (lo len : Nat) (h : lo + len ≤ n) :
    (a ++ b).extractLsb' lo len = b.extractLsb' lo len := by
  apply BitVec.eq_of_getLsbD_eq
  intro i hi
  rw [BitVec.getLsbD_extractLsb', BitVec.getLsbD_extractLsb', BitVec.getLsbD_append, if_pos (by omega)]

/-- The AND of two concatenations of one shape. -/
theorem append_and_append {m n : Nat} (a c : BitVec m) (b d : BitVec n) :
    (a ++ b) &&& (c ++ d) = (a &&& c) ++ (b &&& d) := by
  apply BitVec.eq_of_getLsbD_eq
  intro i hi
  simp only [BitVec.getLsbD_and, BitVec.getLsbD_append]
  split <;> rfl

theorem stimWord_op (op : BitVec 4) (v : Byte) : (stimWord op v).extractLsb' 28 4 = op :=
  (extract_append_high op (0#20 ++ v) 28 4 (by decide)).trans (by simp)

theorem stimWord_operand (op : BitVec 4) (v : Byte) : (stimWord op v).extractLsb' 0 8 = v :=
  (extract_append_low op (0#20 ++ v) 0 8 (by decide)).trans
    ((extract_append_low 0#20 v 0 8 (by decide)).trans (by simp))

theorem stimWord_reserved (op : BitVec 4) (v : Byte) : (stimWord op v).extractLsb' 8 20 = 0#20 :=
  (extract_append_low op (0#20 ++ v) 8 20 (by decide)).trans
    ((extract_append_high 0#20 v 8 20 (by decide)).trans (by simp))

theorem eventWord_kind (k : EventKind) (p : BitVec 32) : (eventWord k p).extractLsb' 32 4 = kindCode k :=
  (extract_append_high (kindCode k) p 32 4 (by decide)).trans (by simp)

theorem eventWord_payload (k : EventKind) (p : BitVec 32) (lo len : Nat) (h : lo + len ≤ 32) :
    (eventWord k p).extractLsb' lo len = p.extractLsb' lo len :=
  extract_append_low (kindCode k) p lo len h

theorem rfWord_ts (pol : Bool) (ts : Ts) : (rfWord pol ts).extractLsb' 0 16 = ts :=
  (extract_append_low (BitVec.ofBool pol) ts 0 16 (by decide)).trans (by simp)

theorem rfWord_pol (pol : Bool) (ts : Ts) : (rfWord pol ts).getLsbD 16 = pol := by
  refine Eq.trans (BitVec.getLsbD_append (x := BitVec.ofBool pol) (y := ts) (i := 16)) ?_
  cases pol <;> simp

/-- An event word has the code of its kind in bits 35:32. -/
theorem eventWord_mask (k : EventKind) (p : BitVec 32) :
    eventWord k p &&& 0xF00000000#36 = kindCode k ++ 0#32 := by
  refine Eq.trans (append_and_append (kindCode k) 0xF#4 p 0#32) ?_
  cases k <;> simp [kindCode]

/-- A sample word of RF has its polarity in bit 16. -/
theorem rfWord_mask (pol : Bool) (ts : Ts) : rfWord pol ts &&& 0x10000#17 = BitVec.ofBool pol ++ 0#16 := by
  refine Eq.trans (append_and_append (BitVec.ofBool pol) 1#1 ts 0#16) ?_
  cases pol <;> simp

end Sys2Proof
end

