-- ==== Sys2Proof/Laws/Fifo.lean ====
section
/-!
SUPPORT. The laws of the FIFO operations over a history: what `push`, the synchroniser and `pop` each do to it, and when a
pop is pending (20_memory.md R78, R79, 40_fifo.md R130, R133, R136).
-/
namespace Sys2Proof.Machine

theorem getLastD_map_grayOf (p : Params) (l : List Nat) :
    (l.map (grayOf p)).getLastD 0#8 = grayOf p (l.getLastD 0) := by
  rw [List.getLastD_eq_getLast?, List.getLastD_eq_getLast?, List.getLast?_map]
  cases l.getLast? with
  | none => simp [grayOf, cursorOf, bin2gray]
  | some n => rfl

/-- A history that explains one state explains every state with the same FIFO registers. -/
theorem Tracks.congr {s t : State} {h : History} (k : Tracks s h) (hp : t.params = s.params) (hm : t.mem = s.mem)
    (hwb : t.wrBin = s.wrBin) (hwg : t.wrGray = s.wrGray) (hrb : t.rdBin = s.rdBin) (hrg : t.rdGray = s.rdGray)
    (hws : t.wsync = s.wsync) (hn : t.nPush = s.nPush) (hq : t.nPop = s.nPop) : Tracks t h := by
  obtain ⟨h1, h2, h3, h4, h5, h6, h7, h8, h9, h10, h11⟩ := k
  constructor
  · rw [hp]; exact h1
  · rw [hn]; exact h2
  · rw [hq]; exact h3
  · rw [hwb, hn, hp]; exact h4
  · rw [hrb, hq, hp]; exact h5
  · simp only [GrayCoherent, hwg, hwb, hrg, hrb]; exact h6
  · rw [hws, hp]; exact h7
  · rw [hp]; exact h8
  · rw [hn]; exact h9
  · rw [hq]; exact h10
  · rw [hn, hm, hp]; exact h11

theorem Tracks.ptrW_le {s : State} {h : History} (k : Tracks s h) : s.params.ptrW ≤ 8 := k.params_legal.2.2.2.1

theorem Tracks.view_le {s : State} {h : History} (k : Tracks s h) : h.view ≤ s.nPush := by
  unfold History.view
  rw [List.getLastD_eq_getLast?]
  cases hl : h.seen.getLast? with
  | none => exact Nat.zero_le _
  | some v => exact List.rel_of_pairwise_cons k.seen_order (List.mem_of_getLast? hl)

theorem Tracks.lastStage {s : State} {h : History} (k : Tracks s h) : lastStage s = grayOf s.params h.view := by
  rw [Machine.lastStage, k.stages, getLastD_map_grayOf, History.view]

theorem Tracks.rdGray {s : State} {h : History} (k : Tracks s h) : s.rdGray = grayOf s.params s.nPop := by
  rw [k.gray.2, k.read_cursor, grayOf]

/-- A sample is pending exactly when the view and the pop count differ modulo `DEPTH`. -/
theorem Tracks.pending_iff {s : State} {h : History} (k : Tracks s h) :
    pending s = true ↔ h.view % s.params.depth ≠ s.nPop % s.params.depth := by
  rw [pending, k.lastStage, k.rdGray, bne_iff_ne, Ne, grayOf_eq_iff _ _ _ k.ptrW_le, eq_comm]

theorem Tracks.popped_lt_view {s : State} {h : History} (k : Tracks s h) (hp : pending s = true) :
    s.nPop < h.view := by
  have hne := k.pending_iff.1 hp
  have hle := k.popped_seen
  rcases Nat.lt_or_ge s.nPop h.view with hlt | hge
  · exact hlt
  · exact absurd (by rw [Nat.le_antisymm hle hge]) hne

theorem Tracks.collision_iff {s : State} {h : History} (k : Tracks s h) :
    collision s = true ↔ s.nPush % s.params.depth = s.nPop % s.params.depth := by
  rw [collision, beq_iff_eq, k.write_cursor, k.read_cursor, cursorOf_eq_iff _ _ _ k.ptrW_le, eq_comm]

theorem Tracks.push {s : State} {h : History} (k : Tracks s h) (w : Slot) :
    Tracks (push w s) { h with pushed := h.pushed ++ [fitSlot s.params.variant w] } := by
  constructor
  · exact k.params_legal
  · simp [k.pushed_count]
  · exact k.popped_count
  · simp only [push_wrBin, push_nPush, push_params, k.write_cursor, cursorSucc_cursorOf _ _ k.ptrW_le]
  · exact k.read_cursor
  · exact ⟨rfl, k.gray.2⟩
  · exact k.stages
  · exact k.stage_count
  · have hord := k.seen_order
    simp only [push_nPush, List.pairwise_cons] at hord ⊢
    exact ⟨fun a ha => Nat.le_succ_of_le (hord.1 a ha), hord.2⟩
  · exact k.popped_seen
  · intro j u hj hin
    simp only [push_nPush, push_mem, push_params] at hin ⊢
    have hb : s.wrBin.toNat = s.nPush % s.params.depth := by rw [k.write_cursor, cursorOf_toNat _ _ k.ptrW_le]
    rw [List.getElem?_append] at hj
    split at hj
    · rename_i hlt
      rw [k.pushed_count] at hlt
      rw [memRead_memWrite_other _ _ _ _ (hb ▸ mod_ne_of_lt_of_lt_add hlt hin)]
      exact k.window j u hj (by omega)
    · rename_i hge
      rw [k.pushed_count] at hge hj
      have hj0 : j = s.nPush := by
        rcases Nat.lt_or_ge s.nPush j with hlt | hle
        · rw [List.getElem?_eq_none (by simp; omega)] at hj
          cases hj
        · omega
      subst hj0
      simp only [Nat.sub_self, List.getElem?_cons_zero, Option.some.injEq] at hj
      rw [← hj, ← hb, memRead_memWrite_same]

theorem Tracks.pushAll {s : State} {h : History} (k : Tracks s h) (ws : List Slot) :
    Tracks (pushAll ws s) { h with pushed := h.pushed ++ ws.map (fitSlot s.params.variant) } := by
  induction ws generalizing s h with
  | nil => simpa [pushAll_nil] using k
  | cons w ws ih =>
    rw [pushAll_cons]
    have := ih (k.push w)
    simpa using this

theorem Tracks.syncShift {s : State} {h : History} (k : Tracks s h) :
    Tracks (syncShift s) { h with seen := (s.nPush :: h.seen).dropLast } := by
  have hlen : h.seen ≠ [] := by
    intro h0
    have := k.stage_count
    have := k.params_legal
    rw [h0] at *
    simp only [List.length_nil] at *
    omega
  have hsub : List.Sublist (s.nPush :: (s.nPush :: h.seen).dropLast) (s.nPush :: s.nPush :: h.seen) :=
    (List.dropLast_sublist _).cons_cons _
  have hord : (s.nPush :: s.nPush :: h.seen).Pairwise (fun a b => b ≤ a) := by
    have := k.seen_order
    simp only [List.pairwise_cons, List.mem_cons, forall_eq_or_imp, Nat.le_refl, true_and] at this ⊢
    exact ⟨this.1, this⟩
  have hview : h.view ≤ (s.nPush :: h.seen).dropLast.getLastD 0 := by
    obtain ⟨a, l, hl⟩ := List.exists_cons_of_ne_nil hlen
    have hmem : (s.nPush :: h.seen).dropLast.getLastD 0 ∈ (s.nPush :: h.seen).dropLast := by
      rw [hl, List.dropLast_cons_of_ne_nil (by simp), List.getLastD_eq_getLast?,
        List.getLast?_eq_some_getLast (by simp), Option.getD_some]
      exact List.getLast_mem _
    have hsplit : s.nPush :: h.seen = (s.nPush :: h.seen).dropLast ++ [h.view] := by
      have := (List.dropLast_concat_getLast (l := s.nPush :: h.seen) (by simp)).symm
      rw [List.getLast_cons hlen] at this
      rw [History.view, List.getLastD_eq_getLast?, List.getLast?_eq_some_getLast hlen, Option.getD_some]
      exact this
    have hp := k.seen_order
    rw [hsplit, List.pairwise_append] at hp
    exact hp.2.2 _ hmem _ (List.mem_singleton.2 rfl)
  constructor
  · exact k.params_legal
  · exact k.pushed_count
  · exact k.popped_count
  · exact k.write_cursor
  · exact k.read_cursor
  · exact k.gray
  · have hg : s.wrGray = grayOf s.params s.nPush := by rw [k.gray.1, k.write_cursor, grayOf]
    rw [syncShift_wsync, k.stages, hg, ← List.map_cons, ← List.map_dropLast]
    rfl
  · simp [k.stage_count]
  · exact hord.sublist hsub
  · exact Nat.le_trans k.popped_seen hview
  · exact k.window

theorem Tracks.pop {s : State} {h : History} (k : Tracks s h) (hp : pending s = true) :
    Tracks (pop s).2 { h with popped := h.popped ++ [(pop s).1] } := by
  have hlt := k.popped_lt_view hp
  constructor
  · simpa using k.params_legal
  · simpa using k.pushed_count
  · simp [k.popped_count]
  · simpa using k.write_cursor
  · simp only [pop_rdBin, pop_nPop, pop_params, k.read_cursor, cursorSucc_cursorOf _ _ k.ptrW_le]
  · have := k.gray
    exact ⟨by simpa using this.1, by simp⟩
  · simpa using k.stages
  · simpa using k.stage_count
  · simpa using k.seen_order
  · rw [pop_nPop]
    exact hlt
  · simpa using k.window

/-- Without overrun a pending pop reads the next sample pushed and draws nothing. -/
theorem Tracks.pop_next {s : State} {h : History} (k : Tracks s h) (ho : NoOverrun s) (hp : pending s = true) :
    ∃ w, h.pushed[s.nPop]? = some w ∧ Machine.pop s = (w, advanceRead s) := by
  have hlt := k.popped_lt_view hp
  have hle := k.view_le
  have hpush : s.nPop < h.pushed.length := by rw [k.pushed_count]; omega
  refine ⟨h.pushed[s.nPop], List.getElem?_eq_getElem hpush, ?_⟩
  have hc : collision s = false := by
    rw [Bool.eq_false_iff, Ne, k.collision_iff, eq_comm]
    exact mod_ne_of_lt_of_lt_add (by omega) (by simp only [NoOverrun] at ho; omega)
  have hr : memRead s.mem s.rdBin.toNat = some h.pushed[s.nPop] := by
    rw [k.read_cursor, cursorOf_toNat _ _ k.ptrW_le]
    exact k.window _ _ (List.getElem?_eq_getElem hpush) (by simp only [NoOverrun] at ho; omega)
  simp [Machine.pop, readSlot, hc, hr]

/-- `n` synchroniser steps put `wr_gray` into the first `n` stages. -/
theorem syncTimes_eq (n : Nat) (s : State) (hn : n ≤ s.wsync.length) :
    syncTimes n s =
      { s with wsync := List.replicate n s.wrGray ++ s.wsync.take (s.wsync.length - n) } := by
  induction n generalizing s with
  | zero => simp [syncTimes]
  | succ n ih =>
    obtain ⟨m, hm⟩ : ∃ m, s.wsync.length - n = m + 1 := ⟨s.wsync.length - n - 1, by omega⟩
    rw [syncTimes, ih (syncShift s) (by simp; omega)]
    simp only [syncShift, List.dropLast_eq_take, List.length_cons, List.length_take]
    rw [List.replicate_succ', List.append_assoc, List.take_take, Nat.add_sub_cancel,
      Nat.min_eq_left (Nat.le_succ _), hm, Nat.min_eq_left (by omega), List.take_succ_cons,
      show s.wsync.length - (n + 1) = m by omega]
    rfl

end Sys2Proof.Machine
end

