-- ==== Sys2Proof/Laws/PerInstr.lean ====
section
/-!
SUPPORT. Per instruction: the encoded word has the fixed bits of its row of spec/opcode_table.json (its match under its
mask).
-/
namespace Sys2Proof.Laws

/-- The word's bits under the mask are the pattern's, at the width of its format. -/
def hasBits (pattern mask : Nat) (c : Coded) : Prop :=
  match c with
  | .sampleEnc w => w &&& BitVec.ofNat 8 mask = BitVec.ofNat 8 pattern
  | .sampleIr w => w &&& BitVec.ofNat 16 mask = BitVec.ofNat 16 pattern
  | .sampleRf w => w &&& BitVec.ofNat 17 mask = BitVec.ofNat 17 pattern
  | .event w => w &&& BitVec.ofNat 36 mask = BitVec.ofNat 36 pattern
  | .stim w => w &&& BitVec.ofNat 32 mask = BitVec.ofNat 32 pattern

/-- The row's match and mask in spec/opcode_table.json. -/
def rowBits (i : Instr) : Nat × Nat :=
  match i with
  | .pin _ => (0x10000000, 0xFFFFFF00)
  | .pstep _ _ => (0x20000000, 0xFFFFFFFC)
  | .sync => (0x30000000, 0xFFFFFFFF)
  | .cstep => (0x40000000, 0xFFFFFFFF)
  | .reset _ => (0x50000000, 0xFFFFFF00)
  | .rfen _ => (0x60000000, 0xFFFFFFFE)
  | .tmo => (0x70000000, 0xFFFFFFFF)
  | .sampleEncSnap _ => (0x0, 0x0)
  | .sampleIrSent => (0x0, 0xFFFF)
  | .sampleIrEdge _ => (0x0, 0x0)
  | .sampleRfSent _ => (0x0, 0xFFFF)
  | .sampleRfRise _ => (0x10000, 0x10000)
  | .sampleRfFall _ => (0x0, 0x10000)
  | .eventButtonPressed => (0x100000000, 0xF00000000)
  | .eventButtonReleased => (0x200000000, 0xF00000000)
  | .eventRotCw _ => (0x300000000, 0xF00000000)
  | .eventRotCcw _ => (0x400000000, 0xF00000000)
  | .eventPulse _ => (0x500000000, 0xF00000000)
  | .eventGap => (0x600000000, 0xF00000000)
  | .eventAnomaly => (0x700000000, 0xF00000000)
  | .eventFrame _ => (0x800000000, 0xF00000000)

/-- The encoded instruction has its row's fixed bits. -/
def EncodeMatchesRow.Statement (i : Instr) : Prop := hasBits (rowBits i).1 (rowBits i).2 (encode i)

theorem EncodeMatchesRow.pin (v : Byte) : EncodeMatchesRow.Statement (.pin v) := by
  unfold EncodeMatchesRow.Statement hasBits rowBits encode
  revert v
  decide

theorem EncodeMatchesRow.pstep (lvl tick : Bool) : EncodeMatchesRow.Statement (.pstep lvl tick) := by
  unfold EncodeMatchesRow.Statement hasBits rowBits encode
  cases lvl <;> cases tick <;> decide

theorem EncodeMatchesRow.sync : EncodeMatchesRow.Statement (.sync) := by
  unfold EncodeMatchesRow.Statement hasBits rowBits encode
  decide

theorem EncodeMatchesRow.cstep : EncodeMatchesRow.Statement (.cstep) := by
  unfold EncodeMatchesRow.Statement hasBits rowBits encode
  decide

theorem EncodeMatchesRow.reset (init : Byte) : EncodeMatchesRow.Statement (.reset init) := by
  unfold EncodeMatchesRow.Statement hasBits rowBits encode
  revert init
  decide

theorem EncodeMatchesRow.rfen (v : Bool) : EncodeMatchesRow.Statement (.rfen v) := by
  unfold EncodeMatchesRow.Statement hasBits rowBits encode
  cases v <;> decide

theorem EncodeMatchesRow.tmo : EncodeMatchesRow.Statement (.tmo) := by
  unfold EncodeMatchesRow.Statement hasBits rowBits encode
  decide

theorem EncodeMatchesRow.sampleEncSnap (snap : Byte) : EncodeMatchesRow.Statement (.sampleEncSnap snap) := by
  simp [EncodeMatchesRow.Statement, hasBits, rowBits, encode]

theorem EncodeMatchesRow.sampleIrSent : EncodeMatchesRow.Statement (.sampleIrSent) := by
  unfold EncodeMatchesRow.Statement hasBits rowBits encode
  decide

theorem EncodeMatchesRow.sampleIrEdge (ts : Ts) : EncodeMatchesRow.Statement (.sampleIrEdge ts) := by
  simp [EncodeMatchesRow.Statement, hasBits, rowBits, encode]

theorem EncodeMatchesRow.sampleRfSent (pol : Bool) : EncodeMatchesRow.Statement (.sampleRfSent pol) := by
  unfold EncodeMatchesRow.Statement hasBits rowBits encode
  cases pol <;> decide

theorem EncodeMatchesRow.sampleRfRise (ts : Ts) : EncodeMatchesRow.Statement (.sampleRfRise ts) := by
  refine Eq.trans (rfWord_mask true ts) ?_
  show BitVec.ofBool true ++ 0#16 = 0x10000#17
  decide

theorem EncodeMatchesRow.sampleRfFall (ts : Ts) : EncodeMatchesRow.Statement (.sampleRfFall ts) := by
  refine Eq.trans (rfWord_mask false ts) ?_
  show BitVec.ofBool false ++ 0#16 = 0#17
  decide

theorem EncodeMatchesRow.eventButtonPressed : EncodeMatchesRow.Statement (.eventButtonPressed) := by
  unfold EncodeMatchesRow.Statement hasBits rowBits encode
  decide

theorem EncodeMatchesRow.eventButtonReleased : EncodeMatchesRow.Statement (.eventButtonReleased) := by
  unfold EncodeMatchesRow.Statement hasBits rowBits encode
  decide

theorem EncodeMatchesRow.eventRotCw (count : Byte) : EncodeMatchesRow.Statement (.eventRotCw count) := by
  refine Eq.trans (eventWord_mask .rotCw (count.setWidth 32)) ?_
  show kindCode .rotCw ++ 0#32 = 0x300000000#36
  decide

theorem EncodeMatchesRow.eventRotCcw (count : Byte) : EncodeMatchesRow.Statement (.eventRotCcw count) := by
  refine Eq.trans (eventWord_mask .rotCcw (count.setWidth 32)) ?_
  show kindCode .rotCcw ++ 0#32 = 0x400000000#36
  decide

theorem EncodeMatchesRow.eventPulse (duration : BitVec 32) : EncodeMatchesRow.Statement (.eventPulse duration) := by
  refine Eq.trans (eventWord_mask .pulse duration) ?_
  show kindCode .pulse ++ 0#32 = 0x500000000#36
  decide

theorem EncodeMatchesRow.eventGap : EncodeMatchesRow.Statement (.eventGap) := by
  unfold EncodeMatchesRow.Statement hasBits rowBits encode
  decide

theorem EncodeMatchesRow.eventAnomaly : EncodeMatchesRow.Statement (.eventAnomaly) := by
  unfold EncodeMatchesRow.Statement hasBits rowBits encode
  decide

theorem EncodeMatchesRow.eventFrame (value : FrameValue) : EncodeMatchesRow.Statement (.eventFrame value) := by
  refine Eq.trans (eventWord_mask .frame (value.setWidth 32)) ?_
  show kindCode .frame ++ 0#32 = 0x800000000#36
  decide

end Sys2Proof.Laws
end

