-- ==== Sys2Proof/Laws/Timestamps.lean ====
section
/-!
SUPPORT. The laws of the timestamps' `TS_W` bits (00_scope.md R9, 41_capture.md R156, 44_decoder_rf.md R222) and of the
push skid (R166): the masked arithmetic as arithmetic modulo 2 to the power `TS_W`, and what a step keeps of its samples.
-/
namespace Sys2Proof.Machine

/-- Masking with the timestamp bits is reducing modulo 2 to the power `TS_W`. -/
theorem and_tsMask_toNat (p : Params) (c : Ts) (hp : p.tsW ≤ 16) : (c &&& p.tsMask).toNat = c.toNat % 2 ^ p.tsW := by
  have hle : 2 ^ p.tsW ≤ 2 ^ 16 := Nat.pow_le_pow_right (by decide) hp
  have hpos : 0 < 2 ^ p.tsW := Nat.two_pow_pos p.tsW
  rw [BitVec.toNat_and, Params.tsMask, BitVec.toNat_ofNat, Nat.mod_eq_of_lt (by omega), Nat.and_two_pow_sub_one_eq_mod]

/-- The last count of a period. -/
theorem tsMask_toNat (p : Params) (hp : p.tsW ≤ 16) : p.tsMask.toNat = 2 ^ p.tsW - 1 := by
  have hle : 2 ^ p.tsW ≤ 2 ^ 16 := Nat.pow_le_pow_right (by decide) hp
  rw [Params.tsMask, BitVec.toNat_ofNat, Nat.mod_eq_of_lt (by have := Nat.two_pow_pos p.tsW; omega)]

theorem countSucc_toNat (p : Params) (c : Ts) (hp : p.tsW ≤ 16) :
    (countSucc p c).toNat = (c.toNat + 1) % 2 ^ p.tsW := by
  rw [countSucc, and_tsMask_toNat p _ hp, BitVec.toNat_add]
  exact Nat.mod_mod_of_dvd _ (Nat.pow_dvd_pow 2 hp)

/-- A counter that advanced has `TS_W` bits, whatever the parameters. -/
theorem countSucc_lt (p : Params) (c : Ts) : (countSucc p c).toNat < 2 ^ p.tsW := by
  have hpos := Nat.two_pow_pos p.tsW
  have hmask : p.tsMask.toNat ≤ 2 ^ p.tsW - 1 := by
    rw [Params.tsMask, BitVec.toNat_ofNat]
    exact Nat.mod_le _ _
  have hand : (countSucc p c).toNat ≤ p.tsMask.toNat := by
    rw [countSucc, BitVec.toNat_and]
    exact Nat.and_le_right
  omega

/-- With R9's 16 bits every duration is the plain 16-bit difference. -/
theorem rfDuration_of_tsW (p : Params) (base ts : Ts) (hp : p.tsW = 16) : rfDuration p base ts = ts - base := by
  have hmask : p.tsMask = BitVec.allOnes 16 := by
    rw [Params.tsMask, hp]
    decide
  rw [rfDuration, hmask, BitVec.and_allOnes]

theorem generated_length_le (lvl tick : Bool) (s : State) : (generated lvl tick s).length ≤ 2 := by
  unfold generated
  split <;> split <;> simp

/-- A step drops a sample only when it generates two and the skid is full. -/
theorem survivors_of_room (lvl tick : Bool) (s : State) (h : s.pqOcc < s.params.pushqDepth) :
    survivors lvl tick s = generated lvl tick s := by
  have hlen := generated_length_le lvl tick s
  exact List.take_of_length_le (by rw [skidRoom]; omega)

/-- With the skid full a step keeps its first sample only. -/
theorem survivors_of_full (lvl tick : Bool) (s : State) (h : s.pqOcc = s.params.pushqDepth) :
    survivors lvl tick s = (generated lvl tick s).take 1 := by
  rw [survivors, skidRoom, h, Nat.add_sub_cancel_left]

/-- The skid never holds more than its entries. -/
theorem skidAfter_le (lvl tick : Bool) (s : State) (h : s.pqOcc ≤ s.params.pushqDepth) :
    skidAfter lvl tick s ≤ s.params.pushqDepth := by
  have hlen : (survivors lvl tick s).length ≤ skidRoom s := by
    rw [survivors, List.length_take]
    exact Nat.min_le_left _ _
  rw [skidRoom] at hlen
  rw [skidAfter]
  omega

end Sys2Proof.Machine
end

