-- ==== Sys2Proof/Tests/Slice0.lean ====
section
/-!
SUPPORT. The model's own tests. Expected values come from spec/95_test_vectors.md (the vector's id is in the docstring) or
are written out from the tables of spec/30_encoding.md. The `witness_…` theorems show a concrete input that meets the
hypotheses of the obligation they name.
-/
namespace Sys2Proof.Tests

open Sys2Proof Sys2Proof.Machine

/-- ENC right after `RESET 0`. -/
def encStart : State := State.launch (Params.default .enc) 0#8

/-- IR right after `RESET 0`. -/
def irStart : State := State.launch (Params.default .ir) 0#8

/-- RF right after `RESET 0`. -/
def rfStart : State := State.launch (Params.default .rf) 0#8

/-- RF with the decoder enabled and in the capture phase at `idx`, baseline 100. -/
def rfCapture (idx : BitVec 5) : State := { rfStart with rfEnable := true, syncFound := true, idx := idx, base := 100#16 }

/-- The slots of V-RF-11: 1500, 500 twenty-one times, 1500, and slot 23 still to be written. -/
def frameSlots : Vector Ts 24 := ((Vector.replicate 24 500#16).set 0 1500#16).set 22 1500#16

/-- A field of the state an answer carries. -/
def field {α : Type} (f : State → α) (a : Answer) : Option α :=
  match a with
  | .next t => some (f t)
  | .fault _ => none
  | .refused _ => none

/-- The refusal an answer carries. -/
def refusalOf (a : Answer) : Option Refusal :=
  match a with
  | .next _ => none
  | .fault _ => none
  | .refused r => some r

/-! ### Decoding: words written out from the tables of 30_encoding.md -/

/-- R113: op in bits 31:28, the operand in the low bits. -/
theorem test_decode_stim :
    decodeTableWord 32 0b00010000000000000000000010000011 = some (.pin 0x83#8) ∧
      decodeTableWord 32 0b00100000000000000000000000000010 = some (.pstep false true) ∧
      decodeTableWord 32 0b00100000000000000000000000000001 = some (.pstep true false) ∧
      decodeTableWord 32 0b00110000000000000000000000000000 = some .sync ∧
      decodeTableWord 32 0b01000000000000000000000000000000 = some .cstep ∧
      decodeTableWord 32 0b01010000000000000000000000000011 = some (.reset 3#8) ∧
      decodeTableWord 32 0b01100000000000000000000000000001 = some (.rfen true) ∧
      decodeTableWord 32 0b01110000000000000000000000000000 = some .tmo := by decide

/-- R101 to R103, R106, R107: polarity in bit 16, timestamp in bits 15:0, the sentinel whatever the polarity. -/
theorem test_decode_sample :
    decodeTableWord 8 0b10000011 = some (.sampleEncSnap 0x83#8) ∧
      decodeTableWord 16 0b0000000000000000 = some .sampleIrSent ∧
      decodeTableWord 16 0b0000000001100100 = some (.sampleIrEdge 100#16) ∧
      decodeTableWord 24 0b00000000000000000 = some (.sampleRfSent false) ∧
      decodeTableWord 24 0b10000000000000000 = some (.sampleRfSent true) ∧
      decodeTableWord 24 0b10000000001100100 = some (.sampleRfRise 100#16) ∧
      decodeTableWord 24 0b00000000010010110 = some (.sampleRfFall 150#16) := by decide

/-- R108, R109: the kind in bits 35:32, the payload in bits 31:0. -/
theorem test_decode_event :
    decodeTableWord 40 0b000100000000000000000000000000000000 = some .eventButtonPressed ∧
      decodeTableWord 40 0b001000000000000000000000000000000000 = some .eventButtonReleased ∧
      decodeTableWord 40 0b001100000000000000000000000000001100 = some (.eventRotCw 12#8) ∧
      decodeTableWord 40 0b010000000000000000000000000011111100 = some (.eventRotCcw 252#8) ∧
      decodeTableWord 40 0b010100000000000000001111111110011100 = some (.eventPulse 65436#32) ∧
      decodeTableWord 40 0b011000000000000000000000000000000000 = some .eventGap ∧
      decodeTableWord 40 0b011100000000000000000000000000000000 = some .eventAnomaly ∧
      decodeTableWord 40 0b100000000000101001011100001111110000 = some (.eventFrame 0xA5C3F0#24) := by decide

/-- Section 0 of 95_test_vectors.md: the illegal stimulus words, and R110's reserved codes and payloads. -/
theorem test_decode_refuses :
    decode (.stim 0x00000000#32) = .error (.reservedOp 0) ∧
      decode (.stim 0x80000000#32) = .error (.reservedOp 8) ∧
      decode (.stim 0x30000001#32) = .error (.reservedBits "SYNC") ∧
      decode (.stim 0x20000004#32) = .error (.reservedBits "PSTEP") ∧
      decode (.event 0x000000000#36) = .error (.reservedKind 0) ∧
      decode (.event 0x900000000#36) = .error (.reservedKind 9) ∧
      decode (.event 0x300000100#36) = .error (.payloadRange "EVENT.ROT_CW") ∧
      decode (.event 0x801000000#36) = .error (.payloadRange "EVENT.FRAME") := by decide

/-- The encoder writes the words of 95_test_vectors.md. -/
theorem test_encode :
    encode (.pin 0x83#8) = .stim 0x10000083#32 ∧ encode (.pstep true true) = .stim 0x20000003#32 ∧
      encode (.reset 3#8) = .stim 0x50000003#32 ∧ encode (.sampleRfRise 100#16) = .sampleRf 0x10064#17 ∧
      encode (.eventRotCcw 252#8) = .event 0x4000000FC#36 ∧
      encode (.eventFrame 0xA5C3F0#24) = .event 0x800A5C3F0#36 := by decide

/-! ### WellFormed refuses an ill-formed term, check by check -/

/-- R104: no edge sample has the sentinel's timestamp. -/
theorem test_wellFormed_refuses_sentinel_edges :
    (Instr.sampleIrEdge 0#16).wellFormed = false ∧ (Instr.sampleRfRise 0#16).wellFormed = false ∧
      (Instr.sampleRfFall 0#16).wellFormed = false := by decide

/-- R114: a row's other variants, and bits 7:1 of RESET's operand in IR and RF. -/
theorem test_legalIn_refuses :
    (Instr.rfen true).legalIn .enc = false ∧ (Instr.pin 0#8).legalIn .ir = false ∧
      (Instr.pstep true true).legalIn .enc = false ∧ (Instr.reset 2#8).legalIn .ir = false ∧
      (Instr.reset 2#8).legalIn .rf = false ∧ (Instr.reset 2#8).legalIn .enc = true ∧
      (Instr.sampleEncSnap 0#8).legalIn .rf = false ∧ (Instr.eventGap).legalIn .enc = false := by decide

/-! ### One step of each instruction -/

/-- V-C-2: a monitored line falls. -/
theorem test_pin_pushes :
    field (fun t => (t.mem, t.wrBin, t.wrGray, t.pinsPrev)) (exec (.pin 0x06#8) { encStart with pinsPrev := 0x07#8 }) =
      some ([(0, 0x06#17)], 1#8, 1#8, 0x06#8) := by decide

/-- V-C-1: a change outside `MON_MASK`. -/
theorem test_pin_ignores_unmonitored :
    field (fun t => (t.mem, t.wrBin, t.pinsPrev)) (exec (.pin 0xF7#8) { encStart with pinsPrev := 0x07#8 }) =
      some ([], 0#8, 0xF7#8) := by decide

/-- V-C-7: the edge with the pre-increment value, then the sentinel, and the skid holds one. -/
theorem test_pstep_edge_and_wrap :
    field (fun t => (t.mem, t.tcnt, t.pqOcc, t.edgeSel)) (exec (.pstep true true) { irStart with tcnt := 0xFFFF#16 }) =
      some ([(0, 0xFFFF#17), (1, 0#17)], 0#16, 1, false) := by decide

/-- V-C-10: with the skid occupied the sentinel is dropped. -/
theorem test_pstep_drops_sentinel :
    field (fun t => (t.mem, t.tcnt, t.pqOcc))
        (exec (.pstep true true) { irStart with tcnt := 0xFFFF#16, pqOcc := 1 }) =
      some ([(0, 0xFFFF#17)], 0#16, 1) := by decide

/-- V-F-2: one stage. -/
theorem test_sync_one_stage :
    field (fun t => (t.wsync, pending t)) (exec .sync { irStart with wrBin := 1#8, wrGray := 1#8 }) =
      some ([1#8, 0#8], false) := by decide

/-- V-F-4: the first edge after reset is popped and gives `GAP`. -/
theorem test_cstep_pops :
    field (fun t => (t.rdBin, t.rdGray, pending t, t.out))
        (exec .cstep
          { irStart with mem := [(0, 0xFFFF#17)], wrBin := 1#8, wrGray := 1#8, wsync := [1#8, 1#8], nPush := 1 }) =
      some (1#8, 1#8, false, [0x600000000#36]) := by decide

/-- V-F-5, V-H-9: nothing pending. -/
theorem test_cstep_idles : field id (exec .cstep irStart) = some irStart := by decide

/-- V-H-6: `out` and the memory are kept. -/
theorem test_reset_enc :
    field (fun t => (t.mem, t.out, t.pinsPrev, t.wrBin, t.rotCount))
        (exec (.reset 5#8)
          { encStart with
            wrBin := 7#8, rotCount := 9#8, out := [0x100000000#36]
            mem := [(3, 1#17)] }) =
      some ([(3, 1#17)], [0x100000000#36], 5#8, 0#8, 0#8) := by decide

/-- V-H-7. -/
theorem test_reset_ir :
    field (fun t => (t.tcnt, t.edgeSel, t.lvlPrev, t.passOut, t.pqOcc, t.hist1))
        (exec (.reset 1#8) { irStart with tcnt := 9#16, edgeSel := false, pqOcc := 1, hist1 := 4#16 }) =
      some (0#16, true, true, true, 0, 0#16) := by decide

/-- V-H-1: 0 to 1 re-arms. -/
theorem test_rfen_rearms :
    field (fun t => (t.rfEnable, t.syncFound, t.idx))
        (exec (.rfen true) { rfStart with syncFound := true, idx := 9#5 }) =
      some (true, false, 0#5) := by decide

/-- V-H-3: 1 to 0 keeps the phase. -/
theorem test_rfen_disables :
    field (fun t => (t.rfEnable, t.syncFound, t.idx)) (exec (.rfen false) (rfCapture 9#5)) =
      some (false, true, 9#5) := by decide

/-- V-H-4. -/
theorem test_tmo_abandons :
    field (fun t => (t.syncFound, t.idx, t.base)) (exec .tmo (rfCapture 9#5)) = some (false, 0#5, 100#16) := by decide

/-- V-E-5: the button first, then the rotation, the counter wrapping. -/
theorem test_snap_button_then_cw :
    field (fun t => (t.out, t.rotState, t.rotCount, t.buttonState))
        (exec (.sampleEncSnap 0x07#8) { encStart with rotState := 0xD2#8, rotCount := 252#8 }) =
      some ([0x100000000#36, 0x300000000#36], 0x4B#8, 0#8, true) := by decide

/-- V-E-2. -/
theorem test_snap_ccw_wraps :
    field (fun t => (t.out, t.rotState, t.rotCount))
        (exec (.sampleEncSnap 0x03#8) { encStart with rotState := 0xE1#8 }) =
      some ([0x4000000FC#36], 0x87#8, 252#8) := by decide

/-- V-I-1. -/
theorem test_ir_sentinel :
    field (fun t => (t.out, t.hist2, t.hist1)) (exec .sampleIrSent { irStart with hist2 := 5#16, hist1 := 7#16 }) =
      some ([], 7#16, 0#16) := by decide

/-- V-I-10: the largest bridged span, the product reduced modulo 2^32. -/
theorem test_ir_bridged_scaled :
    field (fun t => (t.out, t.hist2, t.hist1))
        (exec (.sampleIrEdge 0xFFFF#16)
          { irStart with hist2 := 1#16, params := { Params.default .ir with usPerTick := 65535#16 } }) =
      some ([0x5FFFC0002#36], 0#16, 0xFFFF#16) := by decide

/-- V-I-6. -/
theorem test_ir_anomaly :
    field (fun t => t.out) (exec (.sampleIrEdge 5#16) { irStart with hist1 := 0xFFFF#16 }) = some [0x700000000#36] := by
  decide

/-- V-RF-3: the reserved sentinel word. -/
theorem test_rf_sentinel : field id (exec (.sampleRfSent true) (rfCapture 5#5)) = some (rfCapture 5#5) := by decide

/-- V-RF-4: a period equal to the threshold does not sync. -/
theorem test_rf_rise_at_threshold :
    field (fun t => (t.syncFound, t.base)) (exec (.sampleRfRise 21000#16) { rfStart with rfEnable := true, base := 1000#16 }) =
      some (false, 21000#16) := by decide

/-- V-RF-6: a period across the wrap. -/
theorem test_rf_rise_across_wrap :
    field (fun t => (t.syncFound, t.base))
        (exec (.sampleRfRise 15465#16) { rfStart with rfEnable := true, base := 60000#16 }) =
      some (true, 15465#16) := by decide

/-- V-RF-12: the frame that repeats is emitted. -/
theorem test_rf_fall_completes :
    field (fun t => (t.out, t.framePrev, t.framePrevValid, t.syncFound, t.idx))
        (exec (.sampleRfFall 1600#16)
          { rfCapture 23#5 with slots := frameSlots, framePrev := 0x800003#24, framePrevValid := true }) =
      some ([0x800800003#36], 0x800003#24, true, false, 0#5) := by decide

/-- V-RF-10. -/
theorem test_rf_fall_fills :
    field (fun t => (t.slots[0], t.idx)) (exec (.sampleRfFall 31500#16) { rfCapture 0#5 with base := 30000#16 }) =
      some (1500#16, 1#5) := by decide

/-- R108: the eight kinds append their words. -/
theorem test_events :
    field (fun t => t.out) (exec .eventButtonPressed encStart) = some [0x100000000#36] ∧
      field (fun t => t.out) (exec .eventButtonReleased encStart) = some [0x200000000#36] ∧
      field (fun t => t.out) (exec (.eventRotCw 12#8) encStart) = some [0x30000000C#36] ∧
      field (fun t => t.out) (exec (.eventRotCcw 252#8) encStart) = some [0x4000000FC#36] ∧
      field (fun t => t.out) (exec (.eventPulse 200#32) irStart) = some [0x5000000C8#36] ∧
      field (fun t => t.out) (exec .eventGap irStart) = some [0x600000000#36] ∧
      field (fun t => t.out) (exec .eventAnomaly irStart) = some [0x700000000#36] ∧
      field (fun t => t.out) (exec (.eventFrame 0xA5C3F0#24) rfStart) = some [0x800A5C3F0#36] := by decide

/-- V-RF-14: `LSB_FIRST`. -/
theorem test_frame_lsb_first :
    reduceFrame { Params.default .rf with frameBitOrder := .lsbFirst } (frameSlots.set 23 1500#16) = 0xC00001#24 := by
  decide

/-- V-RF-15: 1000 decodes as 0, 1001 as 1. -/
theorem test_frame_threshold :
    reduceFrame (Params.default .rf) (((Vector.replicate 24 1000#16).set 0 1001#16).set 23 1001#16) = 0x800001#24 := by
  decide

/-- V-F-6. -/
theorem test_gray :
    [0, 1, 2, 3, 4, 5, 6, 7, 8, 15, 16, 127, 128, 254, 255].map (fun n => bin2gray (BitVec.ofNat 8 n)) =
      [0x00#8, 0x01#8, 0x03#8, 0x02#8, 0x06#8, 0x07#8, 0x05#8, 0x04#8, 0x0C#8, 0x08#8, 0x18#8, 0x40#8, 0xC0#8, 0x81#8,
        0x80#8] := by decide

/-! ### Other launch parameters (R9) -/

/-- PTR_W = 2: four slots, and the cursor goes from 3 to 0 with one bit of the gray code changing (R10, R13, R130). -/
theorem test_depth_four :
    field (fun t => (t.mem, t.wrBin, t.wrGray))
        (exec (.pin 1#8)
          { encStart with wrBin := 3#8, wrGray := 2#8, params := { Params.default .enc with ptrW := 2 } }) =
      some ([(3, 1#17)], 0#8, 0#8) := by decide

/-- REMAP stands for counter value 0, whatever SENTINEL, and the wrap sample carries SENTINEL (R9, R104, R155). -/
theorem test_sentinel_and_remap :
    stamp { Params.default .ir with sentinel := 5#16, remap := 6#16 } 0#16 = 6#16 ∧
      stamp { Params.default .ir with sentinel := 5#16, remap := 6#16 } 5#16 = 5#16 ∧
      field (fun t => t.mem)
          (exec (.pstep false true)
            { irStart with tcnt := 0xFFFF#16, params := { Params.default .ir with sentinel := 5#16 } }) =
        some [(0, 5#17)] := by decide

/-- TS_W = 8: the counter wraps after 0xFF, and an RF duration is taken modulo 256 (R157, R222). -/
theorem test_narrow_counter :
    field (fun t => (t.mem, t.tcnt))
        (exec (.pstep false true) { irStart with tcnt := 0xFF#16, params := { Params.default .ir with tsW := 8 } }) =
        some ([(0, 0#17)], 0#16) ∧
      rfDuration { Params.default .rf with tsW := 8 } 250#16 4#16 = 10#16 := by decide

/-- PUSHQ_DEPTH = 2: with one sample held there is room for the sentinel, with two there is none (R166). -/
theorem test_deeper_skid :
    field (fun t => (t.mem.length, t.pqOcc))
        (exec (.pstep true true)
          { irStart with tcnt := 0xFFFF#16, pqOcc := 1, params := { Params.default .ir with pushqDepth := 2 } }) =
        some (2, 2) ∧
      field (fun t => (t.mem.length, t.pqOcc))
          (exec (.pstep true true)
            { irStart with tcnt := 0xFFFF#16, pqOcc := 2, params := { Params.default .ir with pushqDepth := 2 } }) =
        some (1, 2) := by decide

/-- A bridge whose end lies before its start emits one event and shifts the history, whatever its free payload (R200). -/
theorem test_bridge_without_result :
    field (fun t => (t.out.length, t.hist2, t.hist1))
        (exec (.sampleIrEdge 3#16)
          { irStart with hist2 := 100#16, params := { Params.default .ir with wrapSpan := 50 } }) =
      some (1, 0#16, 3#16) := by decide

/-- FRAME_LEN = 3: the third falling edge completes the frame, slot 0 at place 2 (R227, R228). -/
theorem test_short_frame :
    field (fun t => (t.framePrev, t.idx, t.syncFound))
        (exec (.sampleRfFall 1600#16)
          { rfCapture 2#5 with
            slots := (Vector.replicate 24 0#16).set 0 1500#16, params := { Params.default .rf with frameLen := 3 } }) =
      some (0b101#24, 0#5, false) := by decide

/-! ### Steps, refusals, traces -/

/-- A word the variant does not list, a reserved operand, an illegal word, and the end of the run. -/
theorem test_refusals :
    refusalOf (exec (.rfen true) encStart) = some .wrongVariant ∧
      refusalOf (exec (.reset 2#8) irStart) = some .resetInitReserved ∧
      refusalOf (step { encStart with moves := [.stim 0x30000001#32] }) = some (.illegalWord (.reservedBits "SYNC")) ∧
      refusalOf (step encStart) = some .runEnded := by decide

/-- The placed word is the next instruction run, for a stimulus, a sample and an event word. -/
theorem test_withFetchWord :
    field (fun t => t.tcnt) (step (State.reset.withFetchWord 32 0x20000003)) = some 1#16 ∧
      field (fun t => (t.hist1, t.nPop)) (step (State.reset.withFetchWord 16 0x1234)) = some (0x1234#16, 1) ∧
      field (fun t => t.out) (step (State.reset.withFetchWord 40 0x800A5C3F0)) = some [0x800A5C3F0#36] := by decide

/-- R115, R116: lines of the programs of 95_test_vectors.md. -/
theorem test_parseLine :
    parseLine "PIN   0x83          ; 0x10000083  bit 7 only" = some (.step (.pin 0x83#8)) ∧
      parseLine "PSTEP 0, 1" = some (.step (.pstep false true)) ∧
      parseLine "TICKS 65436, 0" = some (.pseudo (.ticks 65436 false)) ∧
      parseLine "DRAIN" = some (.pseudo .drain) ∧ parseLine "; a comment" = some .blank ∧
      parseLine "PIN 0x100" = none := by decide

/-- `DRAIN` of one pending sample is two `SYNC` and one `CSTEP` (R116). -/
theorem test_expand_drain :
    lineSteps (.pseudo .drain) { irStart with wrBin := 1#8, wrGray := 1#8 } = [.sync, .sync, .cstep] ∧
      lineSteps (.pseudo (.ticks 3 true)) irStart = [.pstep true true, .pstep true true, .pstep true true] := by decide

/-- R58: what the spec gives for reset, at the machine's reset. -/
theorem test_reset_state :
    State.reset.mem = [] ∧ State.reset.wsync = [0#8, 0#8] ∧ State.reset.edgeSel = true ∧ State.reset.out = [] ∧
      pending State.reset = false := by decide

/-- The memory's canonical form: a write in the middle, and a rewrite. -/
theorem test_memory_form :
    memWrite [(1, 5#17), (9, 6#17)] 4 7#17 = [(1, 5#17), (4, 7#17), (9, 6#17)] ∧
      memWrite [(1, 5#17), (9, 6#17)] 9 7#17 = [(1, 5#17), (9, 7#17)] ∧ Memory.wf [(9, 6#17), (1, 5#17)] = false ∧
      Memory.wf [(256, 0#17)] = false := by decide

/-! ### Witnesses: inputs that meet the obligations' hypotheses -/

/-- The history of a launch explains its state. -/
theorem start_tracks (p : Params) (hp : ParamsLegal p) : Tracks (State.launch p 0#8) (History.start p) := by
  constructor
  · exact hp
  · rfl
  · rfl
  · rfl
  · rfl
  · exact ⟨by simp [State.launch, bin2gray], by simp [State.launch, bin2gray]⟩
  · simp [State.launch, History.start, grayOf, cursorOf, bin2gray]
  · simp [State.launch, History.start]
  · simp [State.launch, History.start, List.pairwise_replicate]
  · exact Nat.zero_le _
  · intro k w hk
    simp [History.start] at hk

/-- Two samples pushed, seen by one stage: a history in order and not in overrun. -/
theorem witness_tracks :
    ∃ (s : State) (h : History), Tracks s h ∧ InOrder h ∧ NoOverrun s ∧ s.nPush = 2 ∧
      ∃ t, exec .cstep s = .next t := by
  have k := ((start_tracks (Params.default .ir) (by decide)).pushAll [1#17, 2#17]).syncShift
  exact ⟨_, _, k, rfl, by decide, by decide, _, rfl⟩

/-- The history after one sample was pushed and seen and then `ws` were pushed unseen. -/
theorem behind_tracks (ws : List Slot) :
    ∃ (s : State) (h : History), Tracks s h ∧ h.view = 1 ∧ s.nPop = 0 ∧ s.nPush = 1 + ws.length ∧
      s.params = Params.default .ir := by
  have k := (((start_tracks (Params.default .ir) (by decide)).push 1#17).syncShift.syncShift).pushAll ws
  exact ⟨_, _, k, rfl, by simp [State.launch], by simp [State.launch], by simp [State.launch]⟩

theorem default_depth (v : Variant) : (Params.default v).depth = 256 := rfl

/-- The boundary of `NoOverrun`: 255 samples outstanding, one of them pending. -/
theorem witness_noOverrun_boundary :
    ∃ (s : State) (h : History), Tracks s h ∧ NoOverrun s ∧ s.nPush = 255 ∧ pending s = true := by
  obtain ⟨s, h, k, hv, hp, hn, hd⟩ := behind_tracks (List.replicate 254 0#17)
  rw [List.length_replicate] at hn
  refine ⟨s, h, k, ?_, by omega, ?_⟩
  · simp only [NoOverrun, hd, default_depth]
    omega
  · rw [k.pending_iff, hv, hp, hd, default_depth]
    decide

/-- V-F-10: 256 outstanding samples, one of them visible, and the cursors equal. -/
theorem witness_collision :
    ∃ (s : State) (h : History), Tracks s h ∧ pending s = true ∧ s.rdBin = s.wrBin := by
  obtain ⟨s, h, k, hv, hp, hn, hd⟩ := behind_tracks (List.replicate 255 0#17)
  rw [List.length_replicate] at hn
  refine ⟨s, h, k, ?_, ?_⟩
  · rw [k.pending_iff, hv, hp, hd, default_depth]
    decide
  · rw [k.read_cursor, k.write_cursor, hp, hn, hd]
    decide

/-- Nothing pushed and everything seen: the start of R141. -/
theorem witness_empty_fifo :
    ∃ (s : State) (h : History), Tracks s h ∧ s.nPush = s.nPop ∧ wrC s = s.wrBin :=
  ⟨_, _, start_tracks (Params.default .enc) (by decide), by decide, by decide⟩

/-- DecodeInvertsEncode, at a boundary timestamp. -/
theorem witness_wellFormed :
    (Instr.sampleRfFall 1#16).wellFormed = true ∧ (Instr.sampleIrEdge 0xFFFF#16).wellFormed = true := by decide

/-- EncodeInvertsDecode: an accepted word of each format. -/
theorem witness_decodes :
    decode (.sampleRf 0x1FFFF#17) = .ok (.sampleRfRise 0xFFFF#16) ∧ decode (.sampleIr 0#16) = .ok .sampleIrSent ∧
      decode (.sampleEnc 0#8) = .ok (.sampleEncSnap 0#8) ∧ decode (.stim 0x70000000#32) = .ok .tmo ∧
      decode (.event 0x5FFFFFFFF#36) = .ok (.eventPulse 0xFFFFFFFF#32) := by decide

/-- IllegalStimulusWordsAreRefused and StepRunsTheDecodedMove: a legal word, an illegal one, and one that is legal in ENC
only. -/
theorem witness_moves :
    ({ encStart with moves := [.stim 0x500000FF#32] } : State).moves = .stim 0x500000FF#32 :: [] ∧
      stimLegal encStart.params.variant 0x500000FF#32 = true ∧ stimLegal irStart.params.variant 0x500000FF#32 = false ∧
      decodeMove (.stim 0x500000FF#32) = .ok (.reset 0xFF#8) ∧
      decodeMove (.event 0xF00000000#36) = .error (.reservedKind 15) ∧ encStart.moves = [] := by decide

/-- SampleWordsClassifyInRowOrder: each premise, `SENTINEL` being 0. -/
theorem witness_sampleWords :
    (encStart.params.variant = .enc ∧ irStart.params.variant = .ir ∧ rfStart.params.variant = .rf) ∧
      rfStart.params.sentinel = 0#16 ∧
    (0x10000#17).extractLsb' 0 16 = 0#16 ∧
      ((0x10001#17).extractLsb' 0 16 ≠ 0#16 ∧ (0x10001#17).getLsbD 16 = true) ∧
      ((0x0FFFF#17).extractLsb' 0 16 ≠ 0#16 ∧ (0x0FFFF#17).getLsbD 16 = false) := by decide

/-- CstepPopsAndDecodesOrIdles, RawReadPortIgnoresAnEmptyRead: both values of `pending`. -/
theorem witness_pending :
    pending { irStart with wsync := [1#8, 1#8] } = true ∧ pending irStart = false := by decide

/-- SyncShiftsTheStages, PendingMeansTheCursorsDiffer, DrainEndsQuiescent, LaunchHasTheEmptyHistory,
ProducerStepMemoryFrame, ResetMeetsMachineInv, GrayCodeStepsOneBit. -/
theorem witness_stages :
    StagesMatch irStart ∧ ParamsLegal irStart.params ∧ GrayCoherent irStart ∧ CursorsInRange irStart ∧
      StagesInRange irStart ∧ (255#8 : Byte).toNat < irStart.params.depth := by decide

/-- PopReadsOrDrawsAndAdvances: a listed slot, and the collision. -/
theorem witness_pop :
    ((0#8 : Byte) ≠ 1#8 ∧ memRead [(0, 5#17)] (0#8 : Byte).toNat = some 5#17) ∧ encStart.rdBin = encStart.wrBin := by
  decide

/-- DomainsKeepTheirOwnState, ProducerIgnoresTheConsumer, ProducerStepMemoryFrame: a producer step, and a step of
neither kind, that answer. -/
theorem witness_domains :
    (∃ t, exec (.pin 1#8) encStart = .next t) ∧ isProducerStep (.pin 1#8) = true ∧
      SameProducer encStart { encStart with rotCount := 4#8 } ∧ (∃ t, exec .sync encStart = .next t) ∧
      isProducerStep .sync = false ∧ isReset .sync = false :=
  ⟨⟨_, rfl⟩, rfl, by constructor <;> rfl, ⟨_, rfl⟩, rfl, rfl⟩

/-- The two samples of V-C-7: ProducerStepMemoryFrame and PushWritesSlotThenPublishes at their largest. -/
theorem witness_two_samples :
    (pushedBy (.pstep true true) { irStart with tcnt := 0xFFFF#16 }).length = 2 := by decide

/-- EventsAreOnlyAppended, ParametersAndMovesAreNeverWritten: an instruction that answers, and one that may emit none. -/
theorem witness_answers :
    (∃ t, exec (.sampleIrEdge 1#16) irStart = .next t) ∧ irStart.params.variant ≠ .enc ∧ mayEmit .sync = false :=
  ⟨⟨_, rfl⟩, by decide, by decide⟩

/-- PinPushesOnMonitoredChange: both cases. -/
theorem witness_pin :
    encStart.params.variant = .enc ∧ (0x04#8 ^^^ encStart.pinsPrev) &&& encStart.params.monMask ≠ 0#8 ∧
      (0xF8#8 ^^^ encStart.pinsPrev) &&& encStart.params.monMask = 0#8 := by decide

/-- PstepOutcome, OneSentinelPerCounterPeriod. -/
theorem witness_pstep :
    irStart.params.variant ≠ .enc ∧ rfStart.params.variant ≠ .enc ∧ irStart.lvlPrev = false ∧
      ParamsLegal irStart.params ∧ CountInRange irStart ∧ SkidInRange irStart ∧
      SkidInRange { irStart with pqOcc := 1 } := by decide

/-- EdgeTimestampsAreNeverTheSentinel: a captured edge in the step that wraps the counter, which pushes both. -/
theorem witness_timestamps :
    (true ≠ irStart.lvlPrev ∧ true = irStart.edgeSel) ∧
      pushedBy (.pstep true true) { irStart with tcnt := 0xFFFF#16 } = [0xFFFF#17, 0#17] ∧
      (0#17 : Slot).extractLsb' 0 16 = 0#16 ∧ irStart.params.sentinel = 0#16 ∧ irStart.params.remap ≠ 0#16 := by decide

/-- AtMostOneRotationEvent, EncSnapshotOutcome. -/
theorem witness_snap : encStart.params.variant = .enc ∧ ∃ t, exec (.sampleEncSnap 3#8) encStart = .next t :=
  ⟨rfl, _, rfl⟩

/-- ButtonAndRotaryAreIndependent: the same button over different pairs, and the same pair over different buttons. -/
theorem witness_independent :
    snapBtn encStart.params 0#8 = snapBtn encStart.params 1#8 ∧ snapPair encStart.params 3#8 = snapPair encStart.params 7#8 ∧
      (∃ t, exec (.sampleEncSnap 1#8) encStart = .next t) ∧ ∃ t, exec (.sampleEncSnap 7#8) encStart = .next t :=
  ⟨by decide, by decide, ⟨_, rfl⟩, ⟨_, rfl⟩⟩

/-- DetentTurnsCountOnce: at the detent with the button up. -/
theorem witness_detent :
    ({ encStart with rotState := 3#8 } : State).params = Params.default .enc ∧ (3#8 : Byte).extractLsb' 0 2 = 0b11#2 ∧
      encStart.buttonState = false := by decide

/-- IrSentinelOnlyShiftsTheHistory, IrEdgeOutcome, AnyRunOfSentinelsGivesOneGap. -/
theorem witness_ir : irStart.params.variant = .ir ∧ (70#16 : Ts) ≠ irStart.params.sentinel ∧ 2 ≤ 2 := by decide

/-- IrTickBounds: the plain path's condition at its boundary. -/
theorem witness_ticks :
    irStart.params.wrapSpan = 65536 ∧ (5#16 : Ts) ≠ 0#16 ∧ (5#16 : Ts).toNat ≤ (5#16 : Ts).toNat := by decide

/-- IrMeasuresTrueTicks: no wrap, one wrap, two wraps. -/
theorem witness_true_ticks :
    ({ irStart with hist1 := 100#16 } : State).hist1 = 100#16 ∧ (100#16 : Ts) ≠ irStart.params.sentinel ∧
      ParamsLegal irStart.params ∧ irStart.params.wrapSpan = 2 ^ irStart.params.tsW ∧
      (100#16 : Ts).toNat < irStart.params.wrapSpan ∧
      (BitVec.ofNat 16 ((100 + 65435) % 65536) ≠ irStart.params.sentinel ∧ (100 + 65435) / 65536 = 0) ∧
      (BitVec.ofNat 16 ((100 + 65437) % 65536) ≠ irStart.params.sentinel ∧ (100 + 65437) / 65536 = 1) ∧
      (BitVec.ofNat 16 ((100 + 130973) % 65536) ≠ irStart.params.sentinel ∧ (100 + 130973) / 65536 = 2) := by decide

/-- RfDisabledDiscardsSamples, RfSentinelChangesNothing. -/
theorem witness_rf_disabled : rfStart.params.variant = .rf ∧ rfStart.rfEnable = false := by decide

/-- RfRisingEdgeOutcome: the capture phase, and the search at each side of the threshold. -/
theorem witness_rf_rise :
    (rfCapture 0#5).params.variant = .rf ∧ (rfCapture 0#5).rfEnable = true ∧ (rfCapture 0#5).syncFound = true ∧
      rfStart.syncFound = false ∧ rfStart.params.syncThreshold < (20001#16 - rfStart.base).toNat ∧
      (20000#16 - rfStart.base).toNat ≤ rfStart.params.syncThreshold := by decide

/-- RfFallingEdgeOutcome, RfFrameCompletion: the last index before the frame's last slot, and the last slot. -/
theorem witness_rf_fall :
    (rfCapture 22#5).idx.toNat + 1 < rfStart.params.frameLen ∧
      (rfCapture 23#5).idx.toNat + 1 = rfStart.params.frameLen ∧ rfStart.params.frameLen ≤ 24 ∧
      (rfCapture 23#5).rfEnable = true ∧ (rfCapture 23#5).syncFound = true ∧
      ({ rfCapture 0#5 with syncFound := false } : State).syncFound = false := by decide

/-- FrameValueIsBitPerSlot: both orders, and the last slot. -/
theorem witness_orders :
    (Params.default .rf).frameLen ≤ 24 ∧ 23 < (Params.default .rf).frameLen ∧
      (Params.default .rf).frameBitOrder = .msbFirst ∧
      ({ Params.default .rf with frameBitOrder := .lsbFirst } : Params).frameBitOrder = .lsbFirst := by decide

/-- A rising edge, a sentinel and a falling edge 50 ticks after the rising one, 24 times. -/
def frameSamples : List Slot := (List.replicate 24 [0x10064#17, 0x00000#17, 0x00096#17]).flatten

/-- TwentyFourFallsMakeAFrame: 24 falling edges, the last sample one of them, rising edges and sentinels in between. -/
theorem witness_twenty_four :
    (rfCapture 0#5).params.variant = .rf ∧ (rfCapture 0#5).rfEnable = true ∧
      (rfCapture 0#5).idx = 0#5 ∧ (rfCapture 0#5).syncFound = true ∧ ParamsLegal (rfCapture 0#5).params ∧
      fallTimes (rfCapture 0#5).params (rfCapture 0#5).base frameSamples = List.replicate 24 50#16 ∧
      (List.replicate 24 50#16 : List Ts).length = (rfCapture 0#5).params.frameLen ∧
      (frameSamples.getLast?.all fun w => isFall (rfCapture 0#5).params w) = true := by decide

/-- ResetLeavesTheResetState, EventWordsAreAppended: each variant, with an operand it allows. -/
theorem witness_reset :
    encStart.params.variant = .enc ∧ irStart.params.variant = .ir ∧ rfStart.params.variant = .rf ∧
      (1#8 : Byte) &&& 0xFE#8 = 0#8 := by decide

/-- RfenOutcome, TmoOutcome: each case. -/
theorem witness_rfen_tmo :
    (rfStart.rfEnable = false ∧ true = true) ∧ ¬((rfCapture 0#5).rfEnable = false ∧ true = true) ∧
      (rfCapture 9#5).syncFound = true ∧ rfStart.syncFound = false := by decide

/-- LegalInstructionsAlwaysStep: a legal instruction, and the two grounds of a refusal. -/
theorem witness_legal :
    (Instr.reset 1#8).legalIn irStart.params.variant = true ∧
      ((Instr.tmo).listedIn encStart.params.variant && (Instr.tmo).operandsLegalIn encStart.params.variant) = false ∧
      ((Instr.reset 2#8).listedIn irStart.params.variant && (Instr.reset 2#8).operandsLegalIn irStart.params.variant) =
        false := by decide

/-- StepKeepsMachineInv: a state that meets the invariant and steps. -/
theorem witness_machineInv :
    MachineInv { encStart with moves := [.stim 0x10000001#32] } ∧
      ∃ t, step { encStart with moves := [.stim 0x10000001#32] } = .next t := by
  have h : decodeMove (.stim 0x10000001#32) = .ok (.pin 1#8) := by decide
  refine ⟨⟨by decide, rfl, by simp [encStart, State.launch], by decide, by decide, by decide, by decide, by decide,
    by decide, by decide, by simp [OutLegal, encStart, State.launch]⟩, ?_⟩
  simp only [step, h]
  exact ⟨_, rfl⟩

/-- ResetMeetsMachineInv: legal parameters in every variant, and at both ends of the cursor width and frame length. -/
theorem witness_launch :
    ParamsLegal (Params.default .enc) ∧ ParamsLegal (Params.default .ir) ∧ ParamsLegal (Params.default .rf) ∧
      ParamsLegal { Params.default .rf with ptrW := 1, frameLen := 1, tsW := 1, pushqDepth := 0 } := by decide

end Sys2Proof.Tests
end

/-!
SUPPORT. The statements of the scope family: the gray code and the step, the sample classes, the frame value, the IR
decoder's next states and the outcome of a producer step of IR and RF.
-/
namespace Sys2Proof.Machine

/-! ### The gray code and the step (00_scope.md R13, R14) -/

theorem gray2bin_top_bit (g : Byte) : (gray2bin g).getLsbD 7 = g.getLsbD 7 := by
  revert g
  decide

/-- R13's recurrence: each lower bit of the inverse is the bit above it XOR the code's bit. -/
theorem gray2bin_recurrence (g : Byte) (i : Fin 7) :
    (gray2bin g).getLsbD i = ((gray2bin g).getLsbD (i + 1) ^^ g.getLsbD i) := by
  revert g i
  decide

/-- Successive 8-bit values, 255 and 0 included, have codes one bit apart. -/
theorem bin2gray_add_one (b : Byte) : ∃ k : Fin 8, bin2gray b ^^^ bin2gray (b + 1#8) = 1#8 <<< k.val := by
  revert b
  decide

/-- The code of the last cursor of `k + 1` bits has the top one of them alone. -/
theorem bin2gray_last (k : Fin 8) : bin2gray (BitVec.ofNat 8 (2 ^ (k.val + 1) - 1)) = 1#8 <<< k.val := by
  revert k
  decide

theorem cursorSucc_of_lt (p : Params) (b : Byte) (hp : p.ptrW ≤ 8) (h : b.toNat + 1 < p.depth) :
    cursorSucc p b = b + 1#8 := by
  have hle := p.depth_le hp
  apply BitVec.eq_of_toNat_eq
  rw [cursorSucc_toNat p b hp, Nat.mod_eq_of_lt h, BitVec.toNat_add]
  exact (Nat.mod_eq_of_lt (by omega)).symm

theorem cursorSucc_last (p : Params) (b : Byte) (hp : p.ptrW ≤ 8) (h : b.toNat + 1 = p.depth) :
    cursorSucc p b = 0#8 := by
  apply BitVec.eq_of_toNat_eq
  rw [cursorSucc_toNat p b hp, h, Nat.mod_self]
  rfl

/-- A cursor step of any legal width changes one bit of the code: inside the lap it is the 8-bit step, and the step from
the last slot number to 0 clears the only bit its code has. -/
theorem bin2gray_cursorSucc (p : Params) (b : Byte) (hlo : 1 ≤ p.ptrW) (hhi : p.ptrW ≤ 8) (hb : b.toNat < p.depth) :
    ∃ k : Fin 8, bin2gray b ^^^ bin2gray (cursorSucc p b) = 1#8 <<< k.val := by
  rcases Nat.lt_or_eq_of_le (Nat.succ_le_of_lt hb) with hlt | hlast
  · rw [cursorSucc_of_lt p b hhi hlt]
    exact bin2gray_add_one b
  · have hb : b = BitVec.ofNat 8 (2 ^ (p.ptrW - 1 + 1) - 1) := by
      rw [Nat.sub_add_cancel hlo, ← Params.depth, ← hlast, Nat.succ_sub_one, BitVec.ofNat_toNat, BitVec.setWidth_eq]
    refine ⟨⟨p.ptrW - 1, by omega⟩, ?_⟩
    rw [cursorSucc_last p b hhi hlast, hb]
    exact (BitVec.xor_zero).trans (bin2gray_last ⟨p.ptrW - 1, by omega⟩)

/-- Settles O9: the cursor steps of every width reduce to the 8-bit step and the wrap. -/
theorem grayCodeStepsOneBit : Obligations.GrayCodeStepsOneBit := fun b =>
  ⟨rfl, gray2bin_top_bit b, gray2bin_recurrence b, gray2bin_bin2gray b, bin2gray_add_one b,
    fun p hlo hhi hb => bin2gray_cursorSucc p b hlo hhi hb⟩

theorem step_of_decodes {s : State} {m : Move} {rest : List Move} {i : Instr} (hm : s.moves = m :: rest)
    (hi : decodeMove m = .ok i) : step s = exec i { s with moves := rest } := by
  simp only [step, hm, hi]

theorem step_of_illegal {s : State} {m : Move} {rest : List Move} {e : DecodeError} (hm : s.moves = m :: rest)
    (he : decodeMove m = .error e) : step s = .refused (.illegalWord e) := by
  simp only [step, hm, he]

theorem step_of_no_moves {s : State} (hm : s.moves = []) : step s = .refused .runEnded := by
  simp only [step, hm]

/-- Settles O6, by the three cases of `step`. -/
theorem stepRunsTheDecodedMove : Obligations.StepRunsTheDecodedMove := fun _ =>
  ⟨fun _ _ _ => step_of_decodes, fun _ _ _ => step_of_illegal, step_of_no_moves⟩

/-! ### The sample classes (30_encoding.md R106) -/

theorem decodeSample_enc {p : Params} (w : Slot) (hv : p.variant = .enc) :
    decodeSample p w = .sampleEncSnap (w.extractLsb' 0 8) := by
  simp only [decodeSample, hv]

theorem decodeSample_ir {p : Params} (w : Slot) (hv : p.variant = .ir) :
    decodeSample p w = decodeSampleIr p.sentinel (w.extractLsb' 0 16) := by
  simp only [decodeSample, hv]

theorem decodeSample_rf {p : Params} (w : Slot) (hv : p.variant = .rf) :
    decodeSample p w = decodeSampleRf p.sentinel w := by
  simp only [decodeSample, hv]

/-- Settles O5, variant by variant, the row of the sentinel first. -/
theorem sampleWordsClassifyInRowOrder : Obligations.SampleWordsClassifyInRowOrder := by
  intro p w
  refine ⟨decodeSample_enc w, fun hv => ?_, fun hv => ?_, rfl⟩
  · rw [decodeSample_ir w hv]
    exact ⟨fun h => if_pos h, fun h => if_neg h⟩
  · rw [decodeSample_rf w hv, decodeSampleRf]
    refine ⟨fun h => if_pos h, fun h hpol => ?_, fun h hpol => ?_⟩
    · rw [if_neg h, if_pos hpol]
    · rw [if_neg h, hpol, if_neg Bool.false_ne_true]

/-! ### The IR decoder (43_decoder_ir.md R200 to R207) -/

theorem irStep_sentinel (s : State) : irStep s.params.sentinel s = shiftHistory s.params.sentinel s := by
  rw [irStep, if_pos rfl]

theorem irStep_edge {cur : Ts} {s : State} (h : cur ≠ s.params.sentinel) :
    irStep cur s = shiftHistory cur (emit (irEvent cur s).1 (irEvent cur s).2 s) := by
  rw [irStep, if_neg h]

theorem execSampleIrSent_eq {s : State} (hv : s.params.variant = .ir) :
    exec .sampleIrSent s = .next (irStep s.params.sentinel s) :=
  (inVariant_next _ _ _).2 ⟨by rw [hv]; rfl, rfl⟩

theorem execSampleIrEdge_eq (cur : Ts) {s : State} (hv : s.params.variant = .ir) :
    exec (.sampleIrEdge cur) s = .next (irStep cur s) :=
  (inVariant_next _ _ _).2 ⟨by rw [hv]; rfl, rfl⟩

/-- Settles O35: the sentinel's `irStep` is the history shift alone. -/
theorem irSentinelOnlyShiftsTheHistory : Obligations.IrSentinelOnlyShiftsTheHistory := by
  intro s hv
  rw [execSampleIrSent_eq hv, irStep_sentinel, shiftHistory]

/-- The `PULSE` word of a number of ticks (R108, R109, R206). -/
def pulseWord (p : Params) (ticks : Nat) : EventWord := eventWord .pulse (scale p ticks)

/-- The word of an edge's event, rows in order (R200, R202 to R205). -/
theorem irEvent_word (cur : Ts) (s : State) :
    eventWord (irEvent cur s).1 (irEvent cur s).2 =
      if s.hist1 = s.params.sentinel ∧ s.hist2 = s.params.sentinel then eventWord .gap 0#32
      else if s.hist1 = s.params.sentinel then pulseWord s.params (bridgedTicks s.params s.hist2 cur)
      else if cur.toNat < s.hist1.toNat then eventWord .anomaly 0#32
      else pulseWord s.params (plainTicks s.hist1 cur) := by
  unfold irEvent
  split
  · rfl
  · split
    · rfl
    · split <;> rfl

/-- The bridge's word, the free value of log entry 22 included. -/
theorem pulseWord_bridgedTicks (p : Params) (start cur : Ts) :
    pulseWord p (bridgedTicks p start cur) =
      if start.toNat ≤ cur.toNat + p.wrapSpan then pulseWord p (cur.toNat + p.wrapSpan - start.toNat)
      else pulseWord p (Config.unstatedTicks p.wrapSpan start cur) := by
  rw [bridgedTicks, apply_ite (pulseWord p)]

/-- Settles O36: the edge emits `irEvent`'s word and shifts the history. -/
theorem irEdgeOutcome : Obligations.IrEdgeOutcome := by
  intro cur s hv hcur
  rw [execSampleIrEdge_eq cur hv, irStep_edge hcur, emit, irEvent_word, pulseWord_bridgedTicks]
  rfl

/-! ### The frame value (44_decoder_rf.md R228) -/

/-- The number whose binary digits, the lowest first, are `b 0` to `b (n - 1)`. -/
def bitSum (b : Nat → Bool) (n : Nat) : Nat := ((List.range n).map fun i => (b i).toNat * 2 ^ i).sum

theorem bitSum_succ (b : Nat → Bool) (n : Nat) : bitSum b (n + 1) = 2 ^ n * (b n).toNat + bitSum b n := by
  rw [bitSum, List.range_succ, List.map_append, List.sum_append_nat, Nat.add_comm, Nat.mul_comm]
  rfl

theorem bitSum_lt (b : Nat → Bool) (n : Nat) : bitSum b n < 2 ^ n := by
  induction n with
  | zero => exact Nat.one_pos
  | succ n ih =>
    have hbit := Nat.mul_le_mul_left (2 ^ n) (Bool.toNat_le (b n))
    rw [bitSum_succ, Nat.pow_succ]
    omega

theorem bitSum_testBit_of_lt (b : Nat → Bool) {n j : Nat} (hj : j < n) : (bitSum b n).testBit j = b j := by
  induction n with
  | zero => exact absurd hj (Nat.not_lt_zero j)
  | succ n ih =>
    rw [bitSum_succ, Nat.testBit_two_pow_mul_add _ (bitSum_lt b n)]
    rcases Nat.lt_or_eq_of_le (Nat.le_of_lt_succ hj) with hlt | rfl
    · rw [if_pos hlt, ih hlt]
    · rw [if_neg (Nat.lt_irrefl j), Nat.sub_self, Nat.testBit_zero]
      cases b j <;> rfl

theorem bitSum_testBit_of_ge (b : Nat → Bool) {n j : Nat} (hj : n ≤ j) : (bitSum b n).testBit j = false :=
  Nat.testBit_lt_two_pow (Nat.lt_of_lt_of_le (bitSum_lt b n) (Nat.pow_le_pow_right Nat.two_pos hj))

/-- The threshold bit of slot `i` (R228). -/
def slotBit (p : Params) (slots : Vector Ts 24) (i : Nat) : Bool :=
  decide (p.bitThreshold < (slots.toList.getD i 0#16).toNat)

theorem frameBit_eq_slotBit (p : Params) (slots : Vector Ts 24) (i : Nat) :
    frameBit p slots i = (slotBit p slots i).toNat := by
  simp only [frameBit, slotBit, Bool.toNat, Bool.cond_decide]

theorem slotBit_fin (p : Params) (slots : Vector Ts 24) (i : Fin 24) :
    slotBit p slots i = decide (slots[i].toNat > p.bitThreshold) := by
  have hi : i.val < slots.toList.length := Nat.lt_of_lt_of_eq i.isLt Vector.length_toList.symm
  rw [slotBit, List.getD_eq_getElem?_getD, List.getElem?_eq_getElem hi, Option.getD_some, Vector.getElem_toList]
  rfl

theorem framePlace_msbFirst {p : Params} (ho : p.frameBitOrder = .msbFirst) (i : Nat) :
    framePlace p i = p.frameLen - 1 - i := by
  rw [framePlace, ho]

theorem framePlace_lsbFirst {p : Params} (ho : p.frameBitOrder = .lsbFirst) (i : Nat) : framePlace p i = i := by
  rw [framePlace, ho]

/-- The place of a slot and the slot at a place are one map: reversal, or the identity. -/
theorem framePlace_framePlace (p : Params) {i : Nat} (hi : i < p.frameLen) : framePlace p (framePlace p i) = i := by
  cases ho : p.frameBitOrder with
  | msbFirst => rw [framePlace_msbFirst ho, framePlace_msbFirst ho]; omega
  | lsbFirst => rw [framePlace_lsbFirst ho, framePlace_lsbFirst ho]

/-- Summing over the places instead of the slots changes nothing. -/
theorem sum_framePlace (p : Params) (f : Nat → Nat) :
    ((List.range p.frameLen).map fun i => f (framePlace p i)).sum = ((List.range p.frameLen).map f).sum := by
  cases ho : p.frameBitOrder with
  | msbFirst =>
    have hreverse : (List.range p.frameLen).map (framePlace p) = (List.range p.frameLen).reverse := by
      rw [List.range_eq_range', List.reverse_range', ← List.range_eq_range', Nat.zero_add]
      exact List.map_congr_left fun i _ => framePlace_msbFirst ho i
    rw [← Function.comp_def f, ← List.map_map, hreverse, List.map_reverse, List.sum_reverse_nat]
  | lsbFirst => simp only [framePlace_lsbFirst ho]

/-- The frame value in its places: place `j` carries the threshold bit of slot `framePlace p j`. -/
theorem reduceFrame_eq_bitSum (p : Params) (slots : Vector Ts 24) :
    reduceFrame p slots = BitVec.ofNat 24 (bitSum (fun j => slotBit p slots (framePlace p j)) p.frameLen) := by
  rw [reduceFrame, bitSum, ← sum_framePlace]
  refine congrArg (fun l : List Nat => BitVec.ofNat 24 l.sum) (List.map_congr_left fun i hi => ?_)
  rw [framePlace_framePlace p (List.mem_range.1 hi), frameBit_eq_slotBit]

theorem reduceFrame_getLsbD_of_lt (p : Params) (slots : Vector Ts 24) (hlen : p.frameLen ≤ 24) {j : Nat}
    (hj : j < p.frameLen) : (reduceFrame p slots).getLsbD j = slotBit p slots (framePlace p j) := by
  rw [reduceFrame_eq_bitSum, BitVec.getLsbD_ofNat, bitSum_testBit_of_lt _ hj,
    decide_eq_true (Nat.lt_of_lt_of_le hj hlen), Bool.true_and]

theorem reduceFrame_getLsbD_of_ge (p : Params) (slots : Vector Ts 24) {j : Nat} (hj : p.frameLen ≤ j) :
    (reduceFrame p slots).getLsbD j = false := by
  rw [reduceFrame_eq_bitSum, BitVec.getLsbD_ofNat, bitSum_testBit_of_ge _ hj, Bool.and_false]

/-- Slot `i`'s threshold bit stands at its place. -/
theorem reduceFrame_getLsbD_framePlace (p : Params) (slots : Vector Ts 24) (hlen : p.frameLen ≤ 24) (i : Fin 24)
    (hi : i.val < p.frameLen) :
    (reduceFrame p slots).getLsbD (framePlace p i) = decide (slots[i].toNat > p.bitThreshold) := by
  have hplace : framePlace p i < p.frameLen := by
    cases ho : p.frameBitOrder with
    | msbFirst => rw [framePlace_msbFirst ho]; omega
    | lsbFirst => rwa [framePlace_lsbFirst ho]
  rw [reduceFrame_getLsbD_of_lt p slots hlen hplace, framePlace_framePlace p hi, slotBit_fin]

/-- Settles O45: the frame value as the number with the threshold bits for digits. -/
theorem frameValueIsBitPerSlot : Obligations.FrameValueIsBitPerSlot := by
  intro p slots hlen
  refine ⟨fun i hi => ⟨fun ho => ?_, fun ho => ?_⟩, fun j => reduceFrame_getLsbD_of_ge p slots⟩
  · rw [← framePlace_msbFirst ho]
    exact reduceFrame_getLsbD_framePlace p slots hlen i hi
  · rw [← framePlace_lsbFirst ho i.val]
    exact reduceFrame_getLsbD_framePlace p slots hlen i hi

/-! ### The producer step of IR and RF (41_capture.md R155 to R166) -/

theorem edgeCaptured_eq (lvl : Bool) (s : State) :
    edgeCaptured lvl s = decide (lvl ≠ s.lvlPrev ∧ lvl = s.edgeSel) := by
  rw [Bool.eq_iff_iff, decide_eq_true_iff, edgeCaptured, edgeSeen, Bool.and_eq_true, bne_iff_ne, beq_iff_eq]

theorem counterWraps_eq (tick : Bool) (s : State) :
    counterWraps tick s = decide (tick = true ∧ s.tcnt = s.params.tsMask) := by
  rw [Bool.eq_iff_iff, decide_eq_true_iff, counterWraps, Bool.and_eq_true, beq_iff_eq]

/-- What a producer step generates, by its two conditions. -/
theorem generated_eq (lvl tick : Bool) (s : State) :
    generated lvl tick s =
      (if lvl ≠ s.lvlPrev ∧ lvl = s.edgeSel then [edgeSample s.params.variant lvl (stamp s.params s.tcnt)]
        else []) ++ (if tick = true ∧ s.tcnt = s.params.tsMask then [sentinelSample s.params] else []) := by
  simp only [generated, edgeCaptured_eq, counterWraps_eq, decide_eq_true_eq]

/-- One sample always finds its way out: it leaves for the FIFO in the step's own cycle. -/
theorem survivors_of_length_le_one (lvl tick : Bool) (s : State) (hskid : SkidInRange s)
    (hlen : (generated lvl tick s).length ≤ 1) : survivors lvl tick s = generated lvl tick s :=
  List.take_of_length_le (by rw [skidRoom]; omega)

/-- The registers of a producer step before its pushes (R155, R156, R162, R165). -/
theorem countTick_detectEdge (lvl tick : Bool) (s : State) :
    countTick tick (detectEdge lvl s) =
      { s with
        lvlPrev := lvl
        edgeSel := if lvl ≠ s.lvlPrev ∧ lvl = s.edgeSel then !s.edgeSel else s.edgeSel
        passOut :=
          if (lvl ≠ s.lvlPrev ∧ lvl = s.edgeSel) ∧ s.params.passEn = true then lvl ^^ s.params.passInv else s.passOut
        tcnt := if tick then (s.tcnt + 1#16) &&& s.params.tsMask else s.tcnt } := by
  simp only [detectEdge, edgeCaptured_eq, Bool.and_eq_true, decide_eq_true_eq]
  cases tick <;> rfl

theorem execPstep_eq (lvl tick : Bool) {s : State} (hv : s.params.variant ≠ .enc) :
    exec (.pstep lvl tick) s = .next (pstepStep lvl tick s) :=
  (inVariant_next _ _ _).2 ⟨bne_iff_ne.2 hv, rfl⟩

/-- The step from the samples it keeps: they are pushed, and all but one stay in the skid. -/
theorem pstepStep_of_survivors {lvl tick : Bool} {s : State} {ws : List Slot} (h : survivors lvl tick s = ws) :
    pstepStep lvl tick s =
      { pushAll ws (countTick tick (detectEdge lvl s)) with pqOcc := s.pqOcc + ws.length - 1 } := by
  rw [pstepStep, skidAfter, h]

theorem pstepStep_of_generated {lvl tick : Bool} {s : State} {ws : List Slot} (hskid : SkidInRange s)
    (h : generated lvl tick s = ws) (hlen : ws.length ≤ 1) :
    pstepStep lvl tick s =
      { pushAll ws (countTick tick (detectEdge lvl s)) with pqOcc := s.pqOcc + ws.length - 1 } :=
  pstepStep_of_survivors ((survivors_of_length_le_one lvl tick s hskid (h ▸ hlen)).trans h)

theorem edgeSample_eq_ite (v : Variant) (lvl : Bool) (ts : Ts) :
    edgeSample v lvl ts = if v = .rf then BitVec.ofBool lvl ++ ts else ts.setWidth 17 := by
  cases v <;> rfl

/-- Settles O27: with one sample or none the skid keeps all, and with two it keeps both or, when full, the edge. -/
theorem pstepOutcome : Obligations.PstepOutcome := by
  intro lvl tick s hv hskid captured wraps ts sent edge base
  have hedge : edgeSample s.params.variant lvl (stamp s.params s.tcnt) = edge := edgeSample_eq_ite _ lvl _
  have hbase : countTick tick (detectEdge lvl s) = base := countTick_detectEdge lvl tick s
  have hgen : generated lvl tick s = (if captured then [edge] else []) ++ if wraps then [sent] else [] := by
    rw [generated_eq, hedge]
    rfl
  rw [execPstep_eq lvl tick hv]
  congr 1
  by_cases hc : captured
  · rw [if_pos hc] at hgen ⊢
    by_cases hw : wraps
    · rw [if_pos hw] at hgen ⊢
      by_cases hfull : s.pqOcc = s.params.pushqDepth
      · have hkept : survivors lvl tick s = [edge] := by rw [survivors_of_full lvl tick s hfull, hgen]; rfl
        rw [if_pos hfull, pstepStep_of_survivors hkept, hbase]
        rfl
      · have hkept := (survivors_of_room lvl tick s (Nat.lt_of_le_of_ne hskid hfull)).trans hgen
        rw [if_neg hfull, pstepStep_of_survivors hkept, hbase]
        rfl
    · rw [if_neg hw] at hgen ⊢
      rw [pstepStep_of_generated hskid hgen (Nat.le_refl 1), hbase]
      rfl
  · rw [if_neg hc] at hgen ⊢
    by_cases hw : wraps
    · rw [if_pos hw] at hgen ⊢
      rw [pstepStep_of_generated hskid hgen (Nat.le_refl 1), hbase]
      rfl
    · rw [if_neg hw] at hgen ⊢
      rw [pstepStep_of_generated hskid hgen (Nat.zero_le 1), hbase]
      rfl

/-- The timestamp field has all its bits in a slot of IR and of RF. -/
theorem fitSlot_ts {v : Variant} (hv : v ≠ .enc) (w : Slot) :
    (fitSlot v w).extractLsb' 0 16 = w.extractLsb' 0 16 := by
  have hmask : (dataMask v).extractLsb' 0 16 = BitVec.allOnes 16 := by
    cases v with
    | enc => exact absurd rfl hv
    | ir => rfl
    | rf => rfl
  rw [fitSlot, BitVec.extractLsb'_and, hmask, BitVec.and_allOnes]

/-- The sentinel word has polarity 0, so IR and RF keep it whole. -/
theorem fitSlot_sentinelSample {v : Variant} (hv : v ≠ .enc) (p : Params) :
    fitSlot v (sentinelSample p) = sentinelSample p := by
  have happend (m : BitVec 1) : (0#1 ++ p.sentinel) &&& (m ++ BitVec.allOnes 16) = 0#1 ++ p.sentinel := by
    rw [append_and_append, BitVec.zero_and, BitVec.and_allOnes]
  cases v with
  | enc => exact absurd rfl hv
  | ir => exact happend 0#1
  | rf => exact happend 1#1

theorem edgeSample_ts (v : Variant) (lvl : Bool) (ts : Ts) : (edgeSample v lvl ts).extractLsb' 0 16 = ts := by
  have hnarrow : (ts.setWidth 17).extractLsb' 0 16 = ts :=
    (BitVec.extractLsb'_setWidth_of_le (by decide)).trans BitVec.extractLsb'_eq_self
  cases v with
  | enc => exact hnarrow
  | ir => exact hnarrow
  | rf => exact rfWord_ts lvl ts

theorem survivors_head_of_captured {lvl tick : Bool} {s : State} (hskid : SkidInRange s)
    (hc : lvl ≠ s.lvlPrev ∧ lvl = s.edgeSel) :
    (survivors lvl tick s)[0]? = some (edgeSample s.params.variant lvl (stamp s.params s.tcnt)) := by
  rw [survivors, List.getElem?_take_of_lt (by rw [skidRoom]; omega), generated_eq, if_pos hc]
  rfl

/-- A sample a step keeps is the captured edge's or the sentinel of a wrap. -/
theorem mem_survivors {lvl tick : Bool} {s : State} {w : Slot} (h : w ∈ survivors lvl tick s) :
    ((lvl ≠ s.lvlPrev ∧ lvl = s.edgeSel) ∧ w = edgeSample s.params.variant lvl (stamp s.params s.tcnt)) ∨
      ((tick = true ∧ s.tcnt = s.params.tsMask) ∧ w = sentinelSample s.params) := by
  have hgen := List.mem_of_mem_take h
  simpa only [generated_eq, List.mem_append, List.mem_ite_nil_right, List.mem_singleton] using hgen

theorem stamp_ne_sentinel {p : Params} (c : Ts) (hs : p.sentinel = 0#16) (hr : p.remap ≠ 0#16) :
    stamp p c ≠ p.sentinel := by
  rw [stamp, hs]
  by_cases hc : c = 0#16
  · rw [if_pos hc]
    exact hr
  · rw [if_neg hc]
    exact hc

/-- Settles O30: a kept sample carries the stamped count or is the sentinel of a wrap. -/
theorem edgeTimestampsAreNeverTheSentinel : Obligations.EdgeTimestampsAreNeverTheSentinel := by
  intro lvl tick s hv hskid captured ts
  have hstamp : ∀ u, (fitSlot s.params.variant (edgeSample s.params.variant lvl u)).extractLsb' 0 16 = u :=
    fun u => (fitSlot_ts hv _).trans (edgeSample_ts _ lvl u)
  refine ⟨fun hc => ?_, stamp_ne_sentinel s.tcnt, fun hne w hw hsent => ?_⟩
  · refine ⟨_, ?_, hstamp (stamp s.params s.tcnt)⟩
    rw [pushedBy, List.getElem?_map, survivors_head_of_captured hskid hc, Option.map_some]
  · obtain ⟨u, hu, rfl⟩ := List.mem_map.1 hw
    rcases mem_survivors hu with ⟨hc, rfl⟩ | ⟨⟨htick, hlast⟩, rfl⟩
    · exact absurd ((hstamp _).symm.trans hsent) (hne hc)
    · exact ⟨fitSlot_sentinelSample hv s.params, htick, hlast⟩

end Sys2Proof.Machine

/-!
SUPPORT. The statements of the state family: what each instruction does to the FIFO's history, to the event output and to
the two domains' shares of the state, and the invariant of the machine that follows from them.
-/
namespace Sys2Proof.Machine

/-! ### The meanings (45_control.md R250) -/

/-- What holds of the meaning's state, where the row lists the variant, holds of the state the instruction answers. -/
theorem inVariant_next_elim {motive : State → Prop} {listed : Bool} {t u : State}
    (h : inVariant listed t = .next u) (ht : listed = true → motive t) : motive u := by
  obtain ⟨hl, rfl⟩ := (inVariant_next _ _ _).1 h
  exact ht hl

theorem execCstep_cases {s t : State} (h : exec .cstep s = .next t) :
    (pending s = true ∧ t = decoderStep (pop s).1 (pop s).2) ∨ (pending s = false ∧ t = s) := by
  have ht := Host.Outcome.next.inj h
  cases hp : pending s with
  | true => exact .inl ⟨rfl, by rw [← ht, hp, if_pos rfl]⟩
  | false => exact .inr ⟨rfl, by rw [← ht, hp, if_neg Bool.false_ne_true]⟩

theorem execReset_eq {init : Byte} {s : State} (h : initLegal s.params.variant init = true) :
    exec (.reset init) s = .next (resetStep init s) :=
  if_pos h

theorem execReset_next {init : Byte} {s t : State} (h : exec (.reset init) s = .next t) : resetStep init s = t := by
  rw [execReset_eq (exec_next_listed _ _ _ h).2] at h
  exact Host.Outcome.next.inj h

/-! ### Steps that leave the FIFO registers (10_state.md R33 to R38, R57) -/

/-- The FIFO registers, the memory and the ghost counters agree. -/
structure SameFifo (s t : State) : Prop where
  params : t.params = s.params
  mem : t.mem = s.mem
  wrBin : t.wrBin = s.wrBin
  wrGray : t.wrGray = s.wrGray
  rdBin : t.rdBin = s.rdBin
  rdGray : t.rdGray = s.rdGray
  wsync : t.wsync = s.wsync
  nPush : t.nPush = s.nPush
  nPop : t.nPop = s.nPop

theorem Tracks.of_sameFifo {s t : State} {h : History} (k : Tracks s h) (f : SameFifo s t) : Tracks t h :=
  k.congr f.params f.mem f.wrBin f.wrGray f.rdBin f.rdGray f.wsync f.nPush f.nPop

theorem DecoderFrame.sameFifo {s t : State} (f : DecoderFrame s t) : SameFifo s t :=
  ⟨f.producer.params, f.producer.mem, f.producer.wrBin, f.producer.wrGray, f.rdBin, f.rdGray, f.wsync,
    f.producer.nPush, f.nPop⟩

theorem pinStep_sameFifo (v : Byte) (s : State) : SameFifo (pushAll (pinSamples v s) s) (pinStep v s) := by
  constructor <;> rfl

theorem captureRegisters_sameFifo (lvl tick : Bool) (s : State) :
    SameFifo s (countTick tick (detectEdge lvl s)) := by
  constructor <;> simp

theorem pstepStep_sameFifo (lvl tick : Bool) (s : State) :
    SameFifo (pushAll (survivors lvl tick s) (countTick tick (detectEdge lvl s))) (pstepStep lvl tick s) := by
  constructor <;> rfl

theorem resetStep_sameFifo (init : Byte) (s : State) : SameFifo (resetFifo s) (resetStep init s) := by
  unfold resetStep
  split
  all_goals constructor <;> rfl

theorem rfenStep_sameFifo (v : Bool) (s : State) : SameFifo s (rfenStep v s) := by
  unfold rfenStep
  split
  all_goals constructor <;> rfl

theorem rfenStep_producer (v : Bool) (s : State) : SameProducer s (rfenStep v s) := by
  unfold rfenStep
  split
  all_goals constructor <;> rfl

theorem syncShift_producer (s : State) : SameProducer s (syncShift s) := by
  constructor <;> rfl

theorem tmoStep_frame (s : State) : DecoderFrame s (tmoStep s) := by
  unfold tmoStep
  split
  · exact restartSearch_frame s
  · exact .refl s

/-! ### The words of `out` (30_encoding.md R108 to R110) -/

theorem extract_setWidth_high {m : Nat} (x : BitVec m) (n lo len : Nat) (h : m ≤ lo) :
    (x.setWidth n).extractLsb' lo len = 0#len := by
  apply BitVec.eq_of_getLsbD_eq
  intro i hi
  rw [BitVec.getLsbD_extractLsb', BitVec.getLsbD_setWidth, BitVec.getLsbD_of_ge x _ (by omega)]
  simp

theorem extract_setWidth_low {m n : Nat} (x : BitVec m) (h : m ≤ n) : (x.setWidth n).extractLsb' 0 m = x :=
  (BitVec.extractLsb'_setWidth_of_le (by rwa [Nat.zero_add])).trans BitVec.extractLsb'_eq_self

/-- A reader of `out` takes the word of an event row for that row. -/
theorem decodeEvent_of_encode {i : Instr} {w : EventWord} (h : encode i = .event w) : decodeEvent w = .ok i := by
  cases i with
  | eventRotCw count | eventRotCcw count | eventFrame count =>
    cases h
    simp [decodeEvent, eventWord_kind, kindCode, eventWord_payload, extract_setWidth_high, extract_setWidth_low]
  | eventPulse d =>
    cases h
    simp [decodeEvent, eventWord_kind, kindCode, eventWord_payload]
  | eventButtonPressed | eventButtonReleased | eventGap | eventAnomaly =>
    cases h
    rfl
  | _ => cases h

/-- The word of an event row is a legal one in the variants of the row. -/
theorem eventLegal_of_encode {i : Instr} {v : Variant} {w : EventWord} (h : encode i = .event w)
    (hv : i.listedIn v = true) : eventLegal v w = true := by
  rw [eventLegal, decodeEvent_of_encode h]
  exact hv

/-- `out` grew by at most `n` events, each a legal one of the variant. -/
structure Appends (n : Nat) (s t : State) : Prop where
  params : t.params = s.params
  events : ∃ ws : List EventWord,
    t.out = s.out ++ ws ∧ ws.length ≤ n ∧ ∀ w ∈ ws, eventLegal s.params.variant w = true

theorem Appends.of_out_eq {n : Nat} {s t : State} (hp : t.params = s.params) (ho : t.out = s.out) : Appends n s t :=
  ⟨hp, [], by simp [ho]⟩

theorem Appends.mono {m n : Nat} {s t : State} (h : Appends m s t) (hmn : m ≤ n) : Appends n s t := by
  obtain ⟨hp, ws, ho, hlen, hlegal⟩ := h
  exact ⟨hp, ws, ho, Nat.le_trans hlen hmn, hlegal⟩

theorem Appends.trans {m n : Nat} {s t u : State} (h : Appends m s t) (k : Appends n t u) :
    Appends (m + n) s u := by
  obtain ⟨hp, ws, ho, hlen, hlegal⟩ := h
  obtain ⟨kp, vs, ko, klen, klegal⟩ := k
  refine ⟨kp.trans hp, ws ++ vs, by rw [ko, ho, List.append_assoc], ?_, fun w hw => ?_⟩
  · rw [List.length_append]
    omega
  · rcases List.mem_append.1 hw with hw | hw
    · exact hlegal w hw
    · exact hp ▸ klegal w hw

theorem Appends.after_out_eq {n : Nat} {s t u : State} (k : Appends n t u) (hp : t.params = s.params)
    (ho : t.out = s.out) : Appends n s u :=
  ⟨k.params.trans hp, ho ▸ hp ▸ k.events⟩

theorem Appends.outLegal {n : Nat} {s t : State} (h : Appends n s t) (ho : OutLegal s) : OutLegal t := by
  obtain ⟨hp, ws, hout, -, hlegal⟩ := h
  intro w hw
  rw [hp]
  rcases List.mem_append.1 (hout ▸ hw) with hw | hw
  · exact ho w hw
  · exact hlegal w hw

/-- The word appended is that of an event row which lists the variant. -/
theorem Appends.of_out_append {i : Instr} {w : EventWord} {s t : State} (hv : i.listedIn s.params.variant = true)
    (h : encode i = .event w) (hp : t.params = s.params) (ho : t.out = s.out ++ [w]) : Appends 1 s t :=
  ⟨hp, [w], ho, Nat.le_refl 1, by simpa using eventLegal_of_encode h hv⟩

/-! ### What a decoder step and an event word can do (30_encoding.md R106, R109) -/

/-- The events one step may append: two in ENC, one in IR and RF (R111). -/
def eventBound (v : Variant) : Nat := if v = .enc then 2 else 1

theorem one_le_eventBound (v : Variant) : 1 ≤ eventBound v := by
  cases v <;> decide

theorem eventBound_le_two (v : Variant) : eventBound v ≤ 2 := by
  cases v <;> decide

/-- A decoder step keeps its frame, appends legal events within the variant's bound, and keeps `idx` a slot number. -/
structure DecoderOutcome (s t : State) : Prop where
  frame : DecoderFrame s t
  appends : Appends (eventBound s.params.variant) s t
  idx : s.params.frameLen ≤ 24 → s.idx.toNat < s.params.frameLen → t.idx.toNat < s.params.frameLen

theorem classifyButton_idx (btn : Bool) (s : State) : (classifyButton btn s).idx = s.idx := by
  unfold classifyButton
  split <;> rfl

theorem classifyButton_appends (btn : Bool) {s : State} (hv : s.params.variant = .enc) :
    Appends 1 s (classifyButton btn s) := by
  unfold classifyButton
  split
  · exact .of_out_eq rfl rfl
  · cases btn with
    | true => exact .of_out_append (i := .eventButtonPressed) (beq_iff_eq.2 hv) rfl rfl rfl
    | false => exact .of_out_append (i := .eventButtonReleased) (beq_iff_eq.2 hv) rfl rfl rfl

theorem restCheck_idx (s : State) : (restCheck s).idx = s.idx := by
  unfold restCheck
  split
  · rfl
  · split <;> rfl

theorem restCheck_appends {s : State} (hv : s.params.variant = .enc) : Appends 1 s (restCheck s) := by
  unfold restCheck
  split
  · exact .of_out_append (i := .eventRotCcw (s.rotCount - s.params.rotStep)) (beq_iff_eq.2 hv) rfl rfl rfl
  · split
    · exact .of_out_append (i := .eventRotCw (s.rotCount + s.params.rotStep)) (beq_iff_eq.2 hv) rfl rfl rfl
    · exact .of_out_eq rfl rfl

theorem rotaryDecode_idx (pair : BitVec 2) (s : State) : (rotaryDecode pair s).idx = s.idx := by
  unfold rotaryDecode
  split
  · rfl
  · dsimp only
    split
    · exact restCheck_idx _
    · rfl

theorem rotaryDecode_appends (pair : BitVec 2) {s : State} (hv : s.params.variant = .enc) :
    Appends 1 s (rotaryDecode pair s) := by
  unfold rotaryDecode
  split
  · exact .of_out_eq rfl rfl
  · dsimp only
    split
    · exact Appends.after_out_eq (restCheck_appends hv) rfl rfl
    · exact .of_out_eq rfl rfl

theorem encStep_outcome (snap : Byte) {s : State} (hv : s.params.variant = .enc) :
    DecoderOutcome s (encStep snap s) := by
  have hbutton := classifyButton_appends (snapBtn s.params snap) hv
  refine ⟨encStep_frame snap s, ?_, fun _ hidx => ?_⟩
  · rw [hv]
    exact hbutton.trans (rotaryDecode_appends _ (by rw [hbutton.params]; exact hv))
  · rw [encStep, rotaryDecode_idx, classifyButton_idx]
    exact hidx

/-- The event of an IR edge is one of IR's rows. -/
theorem irEvent_encode (cur : Ts) (s : State) :
    ∃ i : Instr, i.listedIn .ir = true ∧ encode i = .event (eventWord (irEvent cur s).1 (irEvent cur s).2) := by
  unfold irEvent
  split
  · exact ⟨.eventGap, rfl, rfl⟩
  · split
    · exact ⟨.eventPulse _, rfl, rfl⟩
    · split
      · exact ⟨.eventAnomaly, rfl, rfl⟩
      · exact ⟨.eventPulse _, rfl, rfl⟩

theorem irStep_outcome (cur : Ts) {s : State} (hv : s.params.variant = .ir) : DecoderOutcome s (irStep cur s) := by
  by_cases hcur : cur = s.params.sentinel
  · have hstep : irStep cur s = shiftHistory cur s := by rw [hcur, irStep_sentinel]
    exact ⟨irStep_frame cur s, hstep ▸ .of_out_eq rfl rfl, fun _ hidx => hstep ▸ hidx⟩
  · obtain ⟨i, hi, henc⟩ := irEvent_encode cur s
    refine ⟨irStep_frame cur s, ?_, fun _ hidx => ?_⟩
    · rw [irStep_edge hcur, hv]
      exact .of_out_append (hv ▸ hi) henc rfl rfl
    · rw [irStep_edge hcur]
      exact hidx

/-- The four things an RF decoder step can do (R220 to R226). -/
theorem rfStep_cases (pol : Bool) (ts : Ts) (s : State) :
    rfStep pol ts s = s ∨ rfStep pol ts s = captureRise ts s ∨ rfStep pol ts s = captureFall ts s ∨
      rfStep pol ts s = searchRise ts s := by
  unfold rfStep
  split
  · split
    · exact .inl rfl
    · split
      · split
        · exact .inr (.inl rfl)
        · exact .inr (.inr (.inl rfl))
      · split
        · exact .inr (.inr (.inr rfl))
        · exact .inl rfl
  · exact .inl rfl

theorem searchRise_appends (ts : Ts) (s : State) (n : Nat) : Appends n s (searchRise ts s) := by
  unfold searchRise
  split
  all_goals exact .of_out_eq rfl rfl

/-- The search starts a frame at slot 0 or leaves `idx` alone. -/
theorem searchRise_idx_le (ts : Ts) (s : State) : (searchRise ts s).idx.toNat ≤ s.idx.toNat := by
  unfold searchRise
  split
  · exact Nat.zero_le _
  · exact Nat.le_refl _

theorem completeFrame_appends {s : State} (hv : s.params.variant = .rf) : Appends 1 s (completeFrame s) := by
  unfold completeFrame
  dsimp only
  split
  · exact .of_out_append (i := .eventFrame (reduceFrame s.params s.slots)) (beq_iff_eq.2 hv) rfl rfl rfl
  · exact .of_out_eq rfl rfl

/-- A falling edge of the capture fills a slot, and completes the frame when it was the last one (R226, R227). -/
theorem captureFall_cases (ts : Ts) (s : State) :
    ((fillSlot ts s).idx.toNat = s.params.frameLen ∧ captureFall ts s = completeFrame (fillSlot ts s)) ∨
      ((fillSlot ts s).idx.toNat ≠ s.params.frameLen ∧ captureFall ts s = fillSlot ts s) := by
  by_cases h : (fillSlot ts s).idx.toNat = s.params.frameLen
  · exact .inl ⟨h, if_pos h⟩
  · exact .inr ⟨h, if_neg h⟩

theorem captureFall_appends (ts : Ts) {s : State} (hv : s.params.variant = .rf) :
    Appends 1 s (captureFall ts s) := by
  rcases captureFall_cases ts s with ⟨-, h⟩ | ⟨-, h⟩
  · rw [h]
    exact Appends.after_out_eq (t := fillSlot ts s) (completeFrame_appends hv) rfl rfl
  · rw [h]
    exact .of_out_eq rfl rfl

theorem captureFall_idx (ts : Ts) {s : State} (hlen : s.params.frameLen ≤ 24)
    (hidx : s.idx.toNat < s.params.frameLen) : (captureFall ts s).idx.toNat < s.params.frameLen := by
  rcases captureFall_cases ts s with ⟨-, h⟩ | ⟨hne, h⟩
  · rw [h]
    exact Nat.zero_lt_of_lt hidx
  · have hsucc : (fillSlot ts s).idx.toNat = s.idx.toNat + 1 :=
      (BitVec.toNat_add _ _).trans (Nat.mod_eq_of_lt (show s.idx.toNat + 1 < 32 by omega))
    rw [h]
    omega

theorem rfStep_outcome (pol : Bool) (ts : Ts) {s : State} (hv : s.params.variant = .rf) :
    DecoderOutcome s (rfStep pol ts s) := by
  have hbound : eventBound s.params.variant = 1 := by rw [hv]; rfl
  refine ⟨rfStep_frame pol ts s, hbound ▸ ?_, fun hlen hidx => ?_⟩
  · rcases rfStep_cases pol ts s with h | h | h | h <;> rw [h]
    · exact .of_out_eq rfl rfl
    · exact .of_out_eq rfl rfl
    · exact captureFall_appends ts hv
    · exact searchRise_appends ts s 1
  · rcases rfStep_cases pol ts s with h | h | h | h <;> rw [h]
    · exact hidx
    · exact hidx
    · exact captureFall_idx ts hlen hidx
    · exact Nat.lt_of_le_of_lt (searchRise_idx_le ts s) hidx

theorem decoderStep_outcome (w : Slot) (s : State) : DecoderOutcome s (decoderStep w s) := by
  unfold decoderStep
  split
  next hv => exact encStep_outcome _ hv
  next hv => exact irStep_outcome _ hv
  next hv => exact rfStep_outcome _ _ hv

theorem emit_outcome {i : Instr} {k : EventKind} {p : BitVec 32} {s : State}
    (hv : i.listedIn s.params.variant = true) (h : encode i = .event (eventWord k p)) :
    DecoderOutcome s (emit k p s) :=
  have hword := Appends.of_out_append (t := emit k p s) hv h rfl rfl
  ⟨emit_frame k p s, hword.mono (one_le_eventBound _), fun _ hidx => hidx⟩

/-- Every sample class and every event word has a decoder step's outcome; of the instructions that may emit, only
`CSTEP` does more, by its pop. -/
theorem exec_decoderOutcome {i : Instr} {s t : State} (hm : mayEmit i = true) (hc : i ≠ .cstep)
    (h : exec i s = .next t) : DecoderOutcome s t := by
  have hl := (exec_next_listed i s t h).1
  cases i with
  | cstep => exact absurd rfl hc
  | sampleEncSnap snap => exact inVariant_next_elim h fun _ => encStep_outcome snap (beq_iff_eq.1 hl)
  | sampleIrSent => exact inVariant_next_elim h fun _ => irStep_outcome _ (beq_iff_eq.1 hl)
  | sampleIrEdge ts => exact inVariant_next_elim h fun _ => irStep_outcome ts (beq_iff_eq.1 hl)
  | sampleRfSent pol => exact inVariant_next_elim h fun _ => rfStep_outcome pol _ (beq_iff_eq.1 hl)
  | sampleRfRise ts => exact inVariant_next_elim h fun _ => rfStep_outcome true ts (beq_iff_eq.1 hl)
  | sampleRfFall ts => exact inVariant_next_elim h fun _ => rfStep_outcome false ts (beq_iff_eq.1 hl)
  | eventButtonPressed | eventButtonReleased | eventRotCw | eventRotCcw | eventPulse | eventGap | eventAnomaly
  | eventFrame => exact inVariant_next_elim h fun _ => emit_outcome hl rfl
  | _ => exact absurd hm Bool.false_ne_true

/-! ### The history of the FIFO (20_memory.md R78, R79, 40_fifo.md R130, R133, R136) -/

theorem bin2gray_zero : bin2gray 0#8 = 0#8 := by decide

/-- The FIFO registers at their reset values are the empty history's. -/
theorem tracks_resetFifo {s : State} (hp : ParamsLegal s.params) :
    Tracks (resetFifo s) (History.start s.params) where
  params_legal := hp
  pushed_count := rfl
  popped_count := rfl
  write_cursor := by simp [resetFifo, cursorOf]
  read_cursor := by simp [resetFifo, cursorOf]
  gray := ⟨bin2gray_zero.symm, bin2gray_zero.symm⟩
  stages := by simp [resetFifo, History.start, grayOf, cursorOf, bin2gray]
  stage_count := List.length_replicate
  seen_order := by simp [resetFifo, History.start, List.pairwise_replicate]
  popped_seen := Nat.zero_le _
  window := fun k w hw => by cases hw

theorem resetFifo_launch (p : Params) (init : Byte) : resetFifo (State.launch p init) = State.launch p init := rfl

/-- Settles O16: at launch the FIFO registers stand at their reset values. -/
theorem launchHasTheEmptyHistory : Obligations.LaunchHasTheEmptyHistory := by
  intro p init hp
  have k := tracks_resetFifo (s := State.launch p init) hp
  rw [resetFifo_launch] at k
  exact ⟨k, rfl⟩

/-- Settles O14: each instruction is a push, a synchroniser shift, a pop or a reset of the FIFO, or leaves it alone. -/
theorem everyInstructionKeepsTheHistory : Obligations.EveryInstructionKeepsTheHistory := by
  intro i s t h k hx
  cases i with
  | pin v =>
    obtain ⟨-, rfl⟩ := (inVariant_next _ _ _).1 hx
    exact (k.pushAll _).of_sameFifo (pinStep_sameFifo v s)
  | pstep lvl tick =>
    have hbase := k.of_sameFifo (captureRegisters_sameFifo lvl tick s)
    have hpush := hbase.pushAll (survivors lvl tick s)
    rw [(captureRegisters_sameFifo lvl tick s).params] at hpush
    obtain ⟨-, rfl⟩ := (inVariant_next _ _ _).1 hx
    exact hpush.of_sameFifo (pstepStep_sameFifo lvl tick s)
  | sync => exact Host.Outcome.next.inj hx ▸ k.syncShift
  | cstep =>
    rcases execCstep_cases hx with ⟨hp, rfl⟩ | ⟨hp, rfl⟩
    · have hpop := (k.pop hp).of_sameFifo (decoderStep_outcome (pop s).1 (pop s).2).frame.sameFifo
      simpa only [History.after, poppedBy, hp, if_true] using hpop
    · simpa only [History.after, poppedBy, hp, Bool.false_eq_true, if_false, List.append_nil] using k
  | reset init =>
    rw [← execReset_next hx]
    exact (tracks_resetFifo k.params_legal).of_sameFifo (resetStep_sameFifo init s)
  | rfen v =>
    obtain ⟨-, rfl⟩ := (inVariant_next _ _ _).1 hx
    exact k.of_sameFifo (rfenStep_sameFifo v s)
  | tmo =>
    obtain ⟨-, rfl⟩ := (inVariant_next _ _ _).1 hx
    exact k.of_sameFifo (tmoStep_frame s).sameFifo
  | _ => exact k.of_sameFifo (exec_decoderOutcome rfl (by simp) hx).frame.sameFifo

/-! ### The two domains and the event output (10_state.md R32, R55) -/

/-- An instruction that is no producer step and no reset leaves the producer's state. -/
theorem exec_producer {i : Instr} {s t : State} (hp : isProducerStep i = false) (hr : isReset i = false)
    (h : exec i s = .next t) : SameProducer s t := by
  cases i with
  | pin | pstep => exact absurd hp.symm Bool.false_ne_true
  | reset => exact absurd hr.symm Bool.false_ne_true
  | sync => exact Host.Outcome.next.inj h ▸ syncShift_producer s
  | cstep =>
    rcases execCstep_cases h with ⟨-, rfl⟩ | ⟨-, rfl⟩
    · exact (pop_producer s).trans (decoderStep_outcome (pop s).1 (pop s).2).frame.producer
    · exact .refl t
  | rfen v => exact inVariant_next_elim h fun _ => rfenStep_producer v s
  | tmo => exact inVariant_next_elim h fun _ => (tmoStep_frame s).producer
  | _ => exact (exec_decoderOutcome rfl (by simp) h).frame.producer

/-- A producer step leaves the consumer's state. -/
theorem exec_consumer {i : Instr} {s t : State} (hp : isProducerStep i = true) (h : exec i s = .next t) :
    SameConsumer s t := by
  cases i with
  | pin v => exact inVariant_next_elim h fun _ => pinStep_consumer v s
  | pstep lvl tick => exact inVariant_next_elim h fun _ => pstepStep_consumer lvl tick s
  | _ => exact absurd hp Bool.false_ne_true

/-- Settles O22, one domain at a time. -/
theorem domainsKeepTheirOwnState : Obligations.DomainsKeepTheirOwnState := fun _ _ _ h =>
  ⟨fun hp hr => exec_producer hp hr h, fun hp => exec_consumer hp h⟩

theorem resetStep_out (init : Byte) (s : State) : (resetStep init s).out = s.out := by
  unfold resetStep
  split <;> rfl

theorem rfenStep_out (v : Bool) (s : State) : (rfenStep v s).out = s.out := by
  unfold rfenStep
  split <;> rfl

theorem tmoStep_out (s : State) : (tmoStep s).out = s.out := by
  unfold tmoStep
  split <;> rfl

/-- Producer, synchroniser and host steps append nothing. -/
theorem exec_appends_zero {i : Instr} {s t : State} (hm : mayEmit i = false) (h : exec i s = .next t) :
    Appends 0 s t := by
  cases i with
  | pin v =>
    have k := exec_consumer rfl h
    exact .of_out_eq k.params k.out
  | pstep lvl tick =>
    have k := exec_consumer rfl h
    exact .of_out_eq k.params k.out
  | sync => exact Host.Outcome.next.inj h ▸ .of_out_eq rfl rfl
  | reset init =>
    rw [← execReset_next h]
    exact .of_out_eq (t := resetStep init s) (resetStep_sameFifo init s).params (resetStep_out init s)
  | rfen v => exact inVariant_next_elim h fun _ => .of_out_eq (rfenStep_producer v s).params (rfenStep_out v s)
  | tmo => exact inVariant_next_elim h fun _ => .of_out_eq (tmoStep_frame s).producer.params (tmoStep_out s)
  | _ => exact absurd hm.symm Bool.false_ne_true

/-- Every instruction appends legal events within the variant's bound. -/
theorem exec_appends {i : Instr} {s t : State} (h : exec i s = .next t) :
    Appends (eventBound s.params.variant) s t := by
  cases hm : mayEmit i with
  | false => exact (exec_appends_zero hm h).mono (Nat.zero_le _)
  | true =>
    by_cases hc : i = .cstep
    · subst hc
      rcases execCstep_cases h with ⟨-, rfl⟩ | ⟨-, rfl⟩
      · have k := (decoderStep_outcome (pop s).1 (pop s).2).appends
        rw [pop_params] at k
        exact k.after_out_eq (pop_params s) (pop_out s)
      · exact .of_out_eq rfl rfl
    · exact (exec_decoderOutcome hm hc h).appends

/-- Settles O25: the events are those of `exec_appends`, and none where nothing can emit. -/
theorem eventsAreOnlyAppended : Obligations.EventsAreOnlyAppended := by
  intro i s t h
  obtain ⟨-, ws, hout, hlen, -⟩ := exec_appends h
  refine ⟨ws, hout, Nat.le_trans hlen (eventBound_le_two _), fun hv => ?_, fun hm => ?_⟩
  · rwa [eventBound, if_neg hv] at hlen
  · obtain ⟨-, vs, hout', hlen', -⟩ := exec_appends_zero hm h
    have heq : ws = vs := List.append_cancel_left (hout.symm.trans hout')
    exact List.eq_nil_of_length_eq_zero (Nat.le_zero.1 (heq ▸ hlen'))

/-! ### Reset (10_state.md R58, 45_control.md R254) -/

theorem initLegal_of_reserved_clear {v : Variant} {init : Byte} (h : init &&& 0xFE#8 = 0#8) :
    initLegal v init = true := by
  simp [initLegal, h]

/-- Settles O47: `RESET` answers `resetStep`, which is the variant's resets in a row. -/
theorem resetLeavesTheResetState : Obligations.ResetLeavesTheResetState := by
  intro init s fifo capture
  refine ⟨fun hv => ?_, fun hv hinit => ?_, fun hv hinit => ?_⟩
  · rw [execReset_eq (by rw [hv]; rfl), resetStep, hv]
    rfl
  · rw [execReset_eq (initLegal_of_reserved_clear hinit), resetStep, hv]
    rfl
  · rw [execReset_eq (initLegal_of_reserved_clear hinit), resetStep, hv]
    rfl

/-! ### The invariant of the machine (10_state.md R33 to R40, R50, R59) -/

/-- The producer's share of the invariant. -/
structure ProducerInv (s : State) : Prop where
  wf : Memory.wf s.mem = true
  fits : MemoryFits s
  cursor : s.wrBin.toNat < s.params.depth
  gray : s.wrGray = bin2gray s.wrBin
  count : CountInRange s
  skid : SkidInRange s

/-- The consumer's share of the invariant. -/
structure ConsumerInv (s : State) : Prop where
  cursor : s.rdBin.toNat < s.params.depth
  gray : s.rdGray = bin2gray s.rdBin
  stages : StagesMatch s
  inRange : StagesInRange s
  idx : s.idx.toNat < s.params.frameLen

theorem machineInv_iff (s : State) :
    MachineInv s ↔ ParamsLegal s.params ∧ ProducerInv s ∧ ConsumerInv s ∧ OutLegal s := by
  constructor
  · rintro ⟨hp, hwf, hfits, ⟨hwr, hrd⟩, ⟨hwg, hrg⟩, hst, hrange, hcount, hskid, hidx, hout⟩
    exact ⟨hp, ⟨hwf, hfits, hwr, hwg, hcount, hskid⟩, ⟨hrd, hrg, hst, hrange, hidx⟩, hout⟩
  · rintro ⟨hp, ⟨hwf, hfits, hwr, hwg, hcount, hskid⟩, ⟨hrd, hrg, hst, hrange, hidx⟩, hout⟩
    exact ⟨hp, hwf, hfits, ⟨hwr, hrd⟩, ⟨hwg, hrg⟩, hst, hrange, hcount, hskid, hidx, hout⟩

theorem paramsLegal_frameLen_pos {p : Params} (h : ParamsLegal p) : 0 < p.frameLen := by
  obtain ⟨-, -, -, -, hpos, -⟩ := h
  exact hpos

theorem paramsLegal_frameLen_le {p : Params} (h : ParamsLegal p) : p.frameLen ≤ 24 := by
  obtain ⟨-, -, -, -, -, hle, -⟩ := h
  exact hle

theorem ProducerInv.congr {s t : State} (k : ProducerInv s) (f : SameProducer s t) : ProducerInv t where
  wf := by rw [f.mem]; exact k.wf
  fits := by rw [MemoryFits, f.mem, f.params]; exact k.fits
  cursor := by rw [f.wrBin, f.params]; exact k.cursor
  gray := by rw [f.wrGray, f.wrBin]; exact k.gray
  count := by rw [CountInRange, f.tcnt, f.params]; exact k.count
  skid := by rw [SkidInRange, f.pqOcc, f.params]; exact k.skid

/-- The consumer's share rests on its FIFO registers and on `idx`. -/
theorem ConsumerInv.congr {s t : State} (k : ConsumerInv s) (hp : t.params = s.params) (hb : t.rdBin = s.rdBin)
    (hg : t.rdGray = s.rdGray) (hw : t.wsync = s.wsync) (hidx : t.idx.toNat < s.params.frameLen) : ConsumerInv t where
  cursor := by rw [hb, hp]; exact k.cursor
  gray := by rw [hg, hb]; exact k.gray
  stages := by rw [StagesMatch, hw, hp]; exact k.stages
  inRange := by rw [StagesInRange, hw, hp]; exact k.inRange
  idx := by rw [hp]; exact hidx

theorem ProducerInv.push {s : State} (k : ProducerInv s) (w : Slot) : ProducerInv (push w s) where
  wf := push_mem_wf w s k.wf
  fits := fun c hc => by
    rcases mem_memWrite _ _ _ c hc with rfl | hc
    · exact ⟨k.cursor, fitSlot_idem _ _⟩
    · exact k.fits c hc
  cursor := cursorSucc_lt s.params s.wrBin
  gray := rfl
  count := k.count
  skid := k.skid

theorem ProducerInv.pushAll {s : State} (k : ProducerInv s) (ws : List Slot) : ProducerInv (pushAll ws s) := by
  induction ws generalizing s with
  | nil => exact k
  | cons w ws ih => exact ih (k.push w)

theorem ProducerInv.pinStep {s : State} (k : ProducerInv s) (v : Byte) : ProducerInv (pinStep v s) := by
  obtain ⟨hwf, hfits, hcursor, hgray, hcount, hskid⟩ := k.pushAll (pinSamples v s)
  exact ⟨hwf, hfits, hcursor, hgray, hcount, hskid⟩

theorem ProducerInv.captureRegisters {s : State} (k : ProducerInv s) (lvl tick : Bool) :
    ProducerInv (countTick tick (detectEdge lvl s)) := by
  obtain ⟨hwf, hfits, hcursor, hgray, hcount, hskid⟩ := k
  cases tick with
  | true => exact ⟨hwf, hfits, hcursor, hgray, countSucc_lt s.params s.tcnt, hskid⟩
  | false => exact ⟨hwf, hfits, hcursor, hgray, hcount, hskid⟩

theorem ProducerInv.pstepStep {s : State} (k : ProducerInv s) (lvl tick : Bool) :
    ProducerInv (pstepStep lvl tick s) := by
  obtain ⟨hwf, hfits, hcursor, hgray, hcount, -⟩ := (k.captureRegisters lvl tick).pushAll (survivors lvl tick s)
  refine ⟨hwf, hfits, hcursor, hgray, hcount, ?_⟩
  rw [SkidInRange, (pstepStep_consumer lvl tick s).params]
  exact skidAfter_le lvl tick s k.skid

theorem ConsumerInv.syncShift {s : State} (k : ConsumerInv s) (hp : ProducerInv s) : ConsumerInv (syncShift s) where
  cursor := k.cursor
  gray := k.gray
  stages := by
    rw [StagesMatch, syncShift_wsync, List.length_dropLast, List.length_cons, Nat.add_sub_cancel]
    exact k.stages
  inRange := fun g hg => by
    rcases List.mem_cons.1 ((List.dropLast_sublist _).mem hg) with rfl | hg
    · rw [hp.gray, gray2bin_bin2gray]
      exact hp.cursor
    · exact k.inRange g hg
  idx := k.idx

theorem ConsumerInv.pop {s : State} (k : ConsumerInv s) : ConsumerInv (pop s).2 where
  cursor := by rw [pop_rdBin, pop_params]; exact cursorSucc_lt s.params s.rdBin
  gray := by rw [pop_rdGray, pop_rdBin]
  stages := by rw [StagesMatch, pop_wsync, pop_params]; exact k.stages
  inRange := by rw [StagesInRange, pop_wsync, pop_params]; exact k.inRange
  idx := by rw [pop_idx, pop_params]; exact k.idx

theorem ConsumerInv.decoderOutcome {s t : State} (k : ConsumerInv s) (hlen : s.params.frameLen ≤ 24)
    (o : DecoderOutcome s t) : ConsumerInv t :=
  k.congr o.frame.producer.params o.frame.rdBin o.frame.rdGray o.frame.wsync (o.idx hlen k.idx)

theorem restartSearch_if_idx {b : Prop} [Decidable b] {s : State} {n : Nat} (h : s.idx.toNat < n) :
    (if b then restartSearch s else s).idx.toNat < n := by
  split
  · exact Nat.zero_lt_of_lt h
  · exact h

theorem producerInv_resetStep {s : State} (k : ProducerInv s) (init : Byte) : ProducerInv (resetStep init s) := by
  obtain ⟨hwf, hfits, -, -, hcount, hskid⟩ := k
  have hdepth := s.params.depth_pos
  unfold Machine.resetStep
  split
  · exact ⟨hwf, hfits, hdepth, bin2gray_zero.symm, hcount, hskid⟩
  · exact ⟨hwf, hfits, hdepth, bin2gray_zero.symm, Nat.two_pow_pos _, Nat.zero_le _⟩
  · exact ⟨hwf, hfits, hdepth, bin2gray_zero.symm, Nat.two_pow_pos _, Nat.zero_le _⟩

theorem resetStep_idx_le (init : Byte) (s : State) : (resetStep init s).idx.toNat ≤ s.idx.toNat := by
  unfold resetStep
  split
  · exact Nat.le_refl _
  · exact Nat.le_refl _
  · exact Nat.zero_le _

theorem consumerInv_resetFifo {s : State} (h : s.idx.toNat < s.params.frameLen) : ConsumerInv (resetFifo s) where
  cursor := s.params.depth_pos
  gray := bin2gray_zero.symm
  stages := List.length_replicate
  inRange := fun g hg => by
    rw [List.eq_of_mem_replicate hg]
    exact s.params.depth_pos
  idx := h

theorem consumerInv_resetStep {s : State} (k : ConsumerInv s) (init : Byte) : ConsumerInv (resetStep init s) :=
  have f := resetStep_sameFifo init s
  (consumerInv_resetFifo k.idx).congr f.params f.rdBin f.rdGray f.wsync
    (Nat.lt_of_le_of_lt (resetStep_idx_le init s) k.idx)

theorem exec_producerInv {i : Instr} {s t : State} (k : ProducerInv s) (h : exec i s = .next t) : ProducerInv t := by
  cases i with
  | pin v => exact inVariant_next_elim h fun _ => k.pinStep v
  | pstep lvl tick => exact inVariant_next_elim h fun _ => k.pstepStep lvl tick
  | reset init => exact execReset_next h ▸ producerInv_resetStep k init
  | _ => exact k.congr (exec_producer rfl rfl h)

theorem exec_consumerInv {i : Instr} {s t : State} (hlen : s.params.frameLen ≤ 24) (hp : ProducerInv s)
    (k : ConsumerInv s) (h : exec i s = .next t) : ConsumerInv t := by
  cases i with
  | pin | pstep =>
    have f := exec_consumer rfl h
    exact k.congr f.params f.rdBin f.rdGray f.wsync (f.idx ▸ k.idx)
  | sync => exact Host.Outcome.next.inj h ▸ k.syncShift hp
  | cstep =>
    rcases execCstep_cases h with ⟨-, rfl⟩ | ⟨-, rfl⟩
    · exact k.pop.decoderOutcome ((pop_params s).symm ▸ hlen) (decoderStep_outcome _ _)
    · exact k
  | reset init => exact execReset_next h ▸ consumerInv_resetStep k init
  | rfen v =>
    have f := rfenStep_sameFifo v s
    exact inVariant_next_elim h fun _ => k.congr f.params f.rdBin f.rdGray f.wsync (restartSearch_if_idx k.idx)
  | tmo =>
    have f := tmoStep_frame s
    exact inVariant_next_elim h fun _ =>
      k.congr f.producer.params f.rdBin f.rdGray f.wsync (restartSearch_if_idx k.idx)
  | _ => exact k.decoderOutcome hlen (exec_decoderOutcome rfl (by simp) h)

theorem exec_machineInv {i : Instr} {s t : State} (k : MachineInv s) (h : exec i s = .next t) : MachineInv t := by
  obtain ⟨hlegal, hprod, hcons, hout⟩ := (machineInv_iff s).1 k
  have hlen := paramsLegal_frameLen_le hlegal
  have happ := exec_appends h
  exact (machineInv_iff t).2
    ⟨happ.params ▸ hlegal, exec_producerInv hprod h, exec_consumerInv hlen hprod hcons h, happ.outLegal hout⟩

/-- Settles O52: a step runs an instruction on the state with its move taken, which no part of the invariant reads. -/
theorem stepKeepsMachineInv : Obligations.StepKeepsMachineInv := by
  intro s t k h
  cases hm : s.moves with
  | nil => rw [step_of_no_moves hm] at h; cases h
  | cons m rest =>
    cases hd : decodeMove m with
    | error e => rw [step_of_illegal hm hd] at h; cases h
    | ok i =>
      rw [step_of_decodes hm hd] at h
      exact exec_machineInv (s := { s with moves := rest }) k h

theorem producerInv_launch (p : Params) (init : Byte) : ProducerInv (State.launch p init) where
  wf := rfl
  fits := fun _ hc => absurd hc List.not_mem_nil
  cursor := p.depth_pos
  gray := bin2gray_zero.symm
  count := Nat.two_pow_pos _
  skid := Nat.zero_le _

/-- Settles O53: at launch the memory and `out` are empty, and every register is zero. -/
theorem resetMeetsMachineInv : Obligations.ResetMeetsMachineInv := by
  refine ⟨fun p init hp => ?_, by decide, rfl⟩
  have hcons := consumerInv_resetFifo (s := State.launch p init) (paramsLegal_frameLen_pos hp)
  rw [resetFifo_launch] at hcons
  exact (machineInv_iff _).2 ⟨hp, producerInv_launch p init, hcons, fun w hw => absurd hw List.not_mem_nil⟩

end Sys2Proof.Machine

/-!
SUPPORT. The statement of the memory family: the slots a run of pushes writes, and those it leaves.
-/
namespace Sys2Proof.Machine

/-! ### The slots of a run of pushes (20_memory.md R70, R72, 40_fifo.md R130) -/

/-- Slots counted on from the cursor after a push are those from the cursor before it, one further on. -/
theorem push_slot_add (w : Slot) (s : State) (hp : s.params.ptrW ≤ 8) (j : Nat) :
    ((push w s).wrBin.toNat + j) % s.params.depth = (s.wrBin.toNat + (j + 1)) % s.params.depth := by
  rw [push_wrBin, cursorSucc_toNat s.params s.wrBin hp, Nat.mod_add_mod, Nat.add_assoc, Nat.add_comm 1 j]

/-- Pushes leave every slot that is not one of theirs. -/
theorem pushAll_memRead_other (ws : List Slot) (s : State) (hp : s.params.ptrW ≤ 8)
    (hcur : s.wrBin.toNat < s.params.depth) (k : Nat)
    (hk : ∀ j, j < ws.length → k ≠ (s.wrBin.toNat + j) % s.params.depth) :
    memRead (pushAll ws s).mem k = memRead s.mem k := by
  induction ws generalizing s with
  | nil => rfl
  | cons w ws ih =>
    have hfirst : k ≠ s.wrBin.toNat := Nat.mod_eq_of_lt hcur ▸ hk 0 (Nat.zero_lt_succ _)
    have hrest : ∀ j, j < ws.length → k ≠ ((push w s).wrBin.toNat + j) % s.params.depth := by
      intro j hj
      rw [push_slot_add w s hp]
      exact hk (j + 1) (Nat.succ_lt_succ hj)
    rw [pushAll_cons, ih (push w s) hp (cursorSucc_lt s.params s.wrBin) hrest, push_mem,
      memRead_memWrite_other _ _ _ _ hfirst]

/-- Within one lap no push overwrites an earlier one: sample `j` stands `j` slots on from the cursor. -/
theorem pushAll_memRead_same (ws : List Slot) (s : State) (hp : s.params.ptrW ≤ 8)
    (hcur : s.wrBin.toNat < s.params.depth) (hlap : ws.length ≤ s.params.depth) (j : Nat) (w : Slot)
    (hj : ws[j]? = some w) :
    memRead (pushAll ws s).mem ((s.wrBin.toNat + j) % s.params.depth) = some (fitSlot s.params.variant w) := by
  induction ws generalizing s j with
  | nil => cases hj
  | cons v ws ih =>
    have hnext := cursorSucc_lt s.params s.wrBin
    rw [List.length_cons] at hlap
    rw [pushAll_cons]
    cases j with
    | zero =>
      obtain rfl : v = w := Option.some.inj hj
      have hkept : ∀ i, i < ws.length → s.wrBin.toNat ≠ ((push v s).wrBin.toNat + i) % s.params.depth := by
        intro i hi heq
        rw [push_slot_add v s hp] at heq
        exact mod_ne_of_lt_of_lt_add (by omega) (by omega) ((Nat.mod_eq_of_lt hcur).trans heq)
      rw [Nat.add_zero, Nat.mod_eq_of_lt hcur, pushAll_memRead_other ws (push v s) hp hnext _ hkept, push_mem,
        memRead_memWrite_same]
    | succ j =>
      rw [← push_slot_add v s hp]
      exact ih (push v s) hp hnext (Nat.le_of_succ_le hlap) j hj

/-! ### The samples of a producer step (41_capture.md R152, R155) -/

theorem pinSamples_length_le (v : Byte) (s : State) : (pinSamples v s).length ≤ 1 := by
  unfold pinSamples
  split
  · exact Nat.le_refl 1
  · exact Nat.zero_le 1

theorem survivors_length_le (lvl tick : Bool) (s : State) : (survivors lvl tick s).length ≤ 2 :=
  Nat.le_trans (List.length_take_le' _ _) (generated_length_le lvl tick s)

/-- To the FIFO a producer step is a run of at most two pushes. -/
theorem exec_producer_pushes {i : Instr} {s t : State} (hp : isProducerStep i = true) (h : exec i s = .next t) :
    ∃ ws u, ws.length ≤ 2 ∧ pushedBy i s = ws.map (fitSlot s.params.variant) ∧ SameFifo s u ∧
      SameFifo (pushAll ws u) t := by
  cases i with
  | pin v =>
    obtain ⟨-, rfl⟩ := (inVariant_next _ _ _).1 h
    exact ⟨_, s, Nat.le_succ_of_le (pinSamples_length_le v s), rfl, by constructor <;> rfl, pinStep_sameFifo v s⟩
  | pstep lvl tick =>
    obtain ⟨-, rfl⟩ := (inVariant_next _ _ _).1 h
    exact ⟨_, _, survivors_length_le lvl tick s, rfl, captureRegisters_sameFifo lvl tick s,
      pstepStep_sameFifo lvl tick s⟩
  | _ => exact absurd hp Bool.false_ne_true

/-- Settles O28: two pushes stay within one lap, as `DEPTH` is at least 2. -/
theorem producerStepMemoryFrame : Obligations.ProducerStepMemoryFrame := by
  intro i s t hprod hlo hhi hcur h
  obtain ⟨ws, u, hlen, hpushed, hbase, hstep⟩ := exec_producer_pushes hprod h
  have hlap : 2 ≤ s.params.depth := Nat.pow_le_pow_right Nat.two_pos hlo
  rw [hpushed, List.length_map, hstep.mem, ← hbase.mem]
  rw [← hbase.params] at hhi hcur hlap ⊢
  rw [← hbase.wrBin] at hcur ⊢
  refine ⟨hlen, fun j w hj => ?_, pushAll_memRead_other ws u hhi hcur⟩
  rw [List.getElem?_map] at hj
  obtain ⟨v, hv, rfl⟩ := Option.map_eq_some_iff.1 hj
  exact pushAll_memRead_same ws u hhi hcur (Nat.le_trans hlen hlap) j v hv

end Sys2Proof.Machine

/-!
SUPPORT. The statements of the encoding family: the decoder and the encoder are inverse, legal stimulus words, the event
words, and the expansions `SETTLE` and `DRAIN`.
-/
namespace Sys2Proof.Machine

/-! ### Words put together from their fields (30_encoding.md R100, R108, R112) -/

/-- A bit of a zero field is clear. -/
theorem getLsbD_of_extract_eq_zero {n lo len i : Nat} {x : BitVec n} (h : x.extractLsb' lo len = 0#len) (hlo : lo ≤ i)
    (hi : i < lo + len) : x.getLsbD i = false := by
  have hbit := congrArg (·.getLsbD (i - lo)) h
  have hin : i - lo < len := by omega
  simpa [hin, Nat.add_sub_cancel' hlo] using hbit

/-- A field within a zero field is zero. -/
theorem extract_eq_zero_of_within {n lo len : Nat} {x : BitVec n} (h : x.extractLsb' lo len = 0#len) (a b : Nat)
    (ha : lo ≤ a) (hb : a + b ≤ lo + len) : x.extractLsb' a b = 0#b := by
  apply BitVec.eq_of_getLsbD_eq
  intro i hi
  rw [BitVec.getLsbD_extractLsb', getLsbD_of_extract_eq_zero h (by omega) (by omega), Bool.and_false,
    BitVec.getLsbD_zero]

/-- A field whose bits from `a` on are zero is its low bits zero-extended. -/
theorem setWidth_extract_of_zero {n a b : Nat} {x : BitVec n} (h : x.extractLsb' a (b - a) = 0#(b - a)) :
    (x.extractLsb' 0 a).setWidth b = x.extractLsb' 0 b := by
  apply BitVec.eq_of_getLsbD_eq
  intro i hi
  rw [BitVec.getLsbD_setWidth, BitVec.getLsbD_extractLsb', BitVec.getLsbD_extractLsb', Nat.zero_add]
  rcases Nat.lt_or_ge i a with hlt | hge
  · simp [hi, hlt]
  · simp [getLsbD_of_extract_eq_zero h hge (by omega)]

theorem extract_bit {n : Nat} (x : BitVec n) (i : Nat) : x.extractLsb' i 1 = BitVec.ofBool (x.getLsbD i) := by
  rw [BitVec.getLsbD_eq_extractLsb']
  generalize x.extractLsb' i 1 = b
  revert b
  decide

/-- A stimulus word is the one its operation and the operand in its low `n` bits make, when the bits between are
zero. -/
theorem stimWord_of_fields {w : StimWord} {op : BitVec 4} {v : Byte} (n : Nat) (hn : n ≤ 8)
    (hop : (w.extractLsb' 28 4).toNat = op.toNat) (hres : w.extractLsb' n (28 - n) = 0#(28 - n))
    (hv : v = (w.extractLsb' 0 n).setWidth 8) : stimWord op v = w := by
  have hlow : w.extractLsb' 8 20 ++ w.extractLsb' 0 8 = w.extractLsb' 0 28 :=
    BitVec.extractLsb'_append_extractLsb'_eq_extractLsb' rfl
  have hhigh := extract_eq_zero_of_within hres n (8 - n) (Nat.le_refl n) (by omega)
  rw [hv, setWidth_extract_of_zero hhigh, stimWord, ← extract_eq_zero_of_within hres 8 20 hn (by omega), hlow,
    ← BitVec.eq_of_toNat_eq hop]
  exact BitVec.extractLsb'_append_extractLsb'

theorem eventWord_of_fields {w : EventWord} {k : EventKind} {p : BitVec 32}
    (hk : (w.extractLsb' 32 4).toNat = (kindCode k).toNat) (hp : p = w.extractLsb' 0 32) : eventWord k p = w := by
  rw [eventWord, hp, ← BitVec.eq_of_toNat_eq hk]
  exact BitVec.extractLsb'_append_extractLsb'

theorem rfWord_of_fields {w : Slot} {pol : Bool} {ts : Ts} (hpol : w.getLsbD 16 = pol) (hts : w.extractLsb' 0 16 = ts) :
    rfWord pol ts = w := by
  rw [rfWord, ← hpol, ← hts, ← extract_bit]
  exact BitVec.extractLsb'_append_extractLsb'

/-! ### The decoder and the encoder are inverse (30_encoding.md R101 to R114) -/

/-- A row that tests its zero bits accepts a word only with those bits zero, and as its own instruction. -/
theorem accepted_of_ite {c : Prop} [Decidable c] {i j : Instr} {e : DecodeError}
    (h : (if c then Decoded.ok j else .error e) = .ok i) : c ∧ j = i := by
  split at h
  next hc => exact ⟨hc, Decoded.ok.inj h⟩
  next => cases h

/-- An accepted stimulus word is the word of its instruction. The cases of the match are numbered by the operation
(R113), 8 being the reserved ones. -/
theorem encode_of_decodeStim {w : StimWord} {i : Instr} (h : decodeStim w = .ok i) : encode i = .stim w := by
  unfold decodeStim at h
  split at h
  case h_1 hop | h_5 hop =>
    obtain ⟨hres, rfl⟩ := accepted_of_ite h
    exact congrArg Coded.stim (stimWord_of_fields 8 (by decide) hop hres (BitVec.setWidth_eq _).symm)
  case h_2 hop =>
    obtain ⟨hres, rfl⟩ := accepted_of_ite h
    refine congrArg Coded.stim (stimWord_of_fields 2 (by decide) hop hres ?_)
    have hbits : w.extractLsb' 1 1 ++ w.extractLsb' 0 1 = w.extractLsb' 0 2 :=
      BitVec.extractLsb'_append_extractLsb'_eq_extractLsb' rfl
    rw [← extract_bit, ← extract_bit, hbits]
    exact (BitVec.setWidth_eq_append (by decide)).symm
  case h_3 hop | h_4 hop | h_7 hop =>
    obtain ⟨hres, rfl⟩ := accepted_of_ite h
    exact congrArg Coded.stim (stimWord_of_fields 0 (by decide) hop hres (by simp))
  case h_6 hop =>
    obtain ⟨hres, rfl⟩ := accepted_of_ite h
    refine congrArg Coded.stim (stimWord_of_fields 1 (by decide) hop hres ?_)
    rw [← extract_bit]
    exact (BitVec.setWidth_eq_append (by decide)).symm
  case h_8 => cases h

/-- An accepted event word is the word of its instruction. The cases of the match are numbered by the kind's code
(R109), 9 being the reserved ones. -/
theorem encode_of_decodeEvent {w : EventWord} {i : Instr} (h : decodeEvent w = .ok i) : encode i = .event w := by
  unfold decodeEvent at h
  split at h
  case h_1 hkind | h_2 hkind | h_6 hkind | h_7 hkind =>
    obtain ⟨hzero, rfl⟩ := accepted_of_ite h
    exact congrArg Coded.event (eventWord_of_fields hkind hzero.symm)
  case h_3 hkind | h_4 hkind | h_8 hkind =>
    obtain ⟨hzero, rfl⟩ := accepted_of_ite h
    exact congrArg Coded.event (eventWord_of_fields hkind (setWidth_extract_of_zero hzero))
  case h_5 hkind =>
    cases h
    exact congrArg Coded.event (eventWord_of_fields hkind rfl)
  case h_9 => cases h

theorem decodeStim_of_encode {w : StimWord} {i : Instr} (h : encode i = .stim w) : decodeStim w = .ok i := by
  cases i with
  | pin v | reset v =>
    cases h
    simp [decodeStim, stimWord_op, stimWord_reserved, stimWord_operand]
  | pstep lvl tick =>
    cases h
    cases lvl <;> cases tick <;> rfl
  | rfen v =>
    cases h
    cases v <;> rfl
  | sync | cstep | tmo =>
    cases h
    rfl
  | _ => cases h

theorem decode_encode_stim {w : StimWord} {i : Instr} (h : encode i = .stim w) : decode (encode i) = .ok i := by
  rw [h]
  exact decodeStim_of_encode h

theorem decode_encode_event {w : EventWord} {i : Instr} (h : encode i = .event w) : decode (encode i) = .ok i := by
  rw [h]
  exact decodeEvent_of_encode h

theorem decodeSampleIr_of_ne {sentinel w : Ts} (h : w ≠ sentinel) : decodeSampleIr sentinel w = .sampleIrEdge w :=
  if_neg h

theorem decodeSampleRf_sentinel (sentinel : Ts) (pol : Bool) :
    decodeSampleRf sentinel (rfWord pol sentinel) = .sampleRfSent pol := by
  rw [decodeSampleRf, rfWord_ts, if_pos rfl, rfWord_pol]

theorem decodeSampleRf_of_ne {sentinel ts : Ts} (pol : Bool) (h : ts ≠ sentinel) :
    decodeSampleRf sentinel (rfWord pol ts) = if pol then .sampleRfRise ts else .sampleRfFall ts := by
  rw [decodeSampleRf, rfWord_ts, if_neg h, rfWord_pol]

/-- Settles O1, format by format; an edge sample is no sentinel because it is well-formed. -/
theorem decodeInvertsEncode : Obligations.DecodeInvertsEncode := by
  intro i hwf
  cases i with
  | pin | pstep | sync | cstep | reset | rfen | tmo => exact decode_encode_stim rfl
  | sampleEncSnap | sampleIrSent => rfl
  | sampleIrEdge ts => exact congrArg Decoded.ok (decodeSampleIr_of_ne (bne_iff_ne.1 hwf))
  | sampleRfSent pol => exact congrArg Decoded.ok (decodeSampleRf_sentinel _ pol)
  | sampleRfRise ts => exact congrArg Decoded.ok (decodeSampleRf_of_ne true (bne_iff_ne.1 hwf))
  | sampleRfFall ts => exact congrArg Decoded.ok (decodeSampleRf_of_ne false (bne_iff_ne.1 hwf))
  | eventButtonPressed | eventButtonReleased | eventRotCw | eventRotCcw | eventPulse | eventGap | eventAnomaly
  | eventFrame => exact decode_encode_event rfl

/-- The sample decoders are inverted by the encoder, and an edge they answer is well-formed: it failed the sentinel's
row. -/
theorem encode_decodeSampleIr (w : Ts) :
    encode (decodeSampleIr formatSentinel w) = .sampleIr w ∧
      (decodeSampleIr formatSentinel w).wellFormed = true := by
  unfold decodeSampleIr
  split
  next h => exact ⟨congrArg Coded.sampleIr h.symm, rfl⟩
  next h => exact ⟨rfl, bne_iff_ne.2 h⟩

theorem encode_decodeSampleRf (w : Slot) :
    encode (decodeSampleRf formatSentinel w) = .sampleRf w ∧
      (decodeSampleRf formatSentinel w).wellFormed = true := by
  unfold decodeSampleRf
  split
  next hts => exact ⟨congrArg Coded.sampleRf (rfWord_of_fields rfl hts), rfl⟩
  next hts =>
    split
    next hpol => exact ⟨congrArg Coded.sampleRf (rfWord_of_fields hpol rfl), bne_iff_ne.2 hts⟩
    next hpol =>
      exact ⟨congrArg Coded.sampleRf (rfWord_of_fields (eq_false_of_ne_true hpol) rfl), bne_iff_ne.2 hts⟩

/-- Only the edge samples restrict their operand, so the instruction of a stimulus or event word is well-formed. -/
theorem wellFormed_of_encode_move {m : Move} {i : Instr} (h : encode i = moveWord m) : i.wellFormed = true := by
  cases i with
  | sampleIrEdge | sampleRfRise | sampleRfFall => cases m <;> cases h
  | _ => rfl

/-- Settles O2, format by format. -/
theorem encodeInvertsDecode : Obligations.EncodeInvertsDecode := by
  intro c i h
  cases c with
  | sampleEnc w =>
    cases h
    exact ⟨rfl, rfl⟩
  | sampleIr w =>
    cases h
    exact encode_decodeSampleIr w
  | sampleRf w =>
    cases h
    exact encode_decodeSampleRf w
  | event w =>
    have hw := encode_of_decodeEvent h
    exact ⟨hw, wellFormed_of_encode_move (m := .event w) hw⟩
  | stim w =>
    have hw := encode_of_decodeStim h
    exact ⟨hw, wellFormed_of_encode_move (m := .stim w) hw⟩

/-! ### Legal stimulus words (30_encoding.md R113, R114) -/

/-- An instruction of the variant with operands allowed there answers a next state. -/
theorem exec_next_of_listed {i : Instr} {s : State} (hlisted : i.listedIn s.params.variant = true)
    (hops : i.operandsLegalIn s.params.variant = true) : ∃ t, exec i s = .next t := by
  cases i with
  | reset init => exact ⟨_, execReset_eq hops⟩
  | sync | cstep => exact ⟨_, rfl⟩
  | _ => exact ⟨_, if_pos hlisted⟩

/-- No instruction faults, so one that answers no next state is refused. -/
theorem exec_refused_of_not_next {i : Instr} {s : State} (h : ∀ t, exec i s ≠ .next t) :
    ∃ r, exec i s = .refused r := by
  cases hx : exec i s with
  | next t => exact absurd hx (h t)
  | fault r => cases r
  | refused r => exact ⟨r, rfl⟩

theorem stimLegal_iff (v : Variant) (w : StimWord) :
    stimLegal v w = true ↔ ∃ r ∈ stimRows, w &&& r.mask = r.pattern ∧ v ∈ r.variants := by
  simp [stimLegal, List.any_eq_true]

theorem stimLegal_of_row {v : Variant} {w : StimWord} (n : Fin 8) (hw : w &&& stimRows[n].mask = stimRows[n].pattern)
    (hv : v ∈ stimRows[n].variants) : stimLegal v w = true :=
  (stimLegal_iff v w).2 ⟨stimRows[n], List.getElem_mem _, hw, hv⟩

/-- A field of a word that its row's mask fixes is the pattern's. -/
theorem extract_of_masked {n : Nat} {w mask pattern : BitVec n} (h : w &&& mask = pattern) (lo len : Nat)
    (hmask : mask.extractLsb' lo len = BitVec.allOnes len) : w.extractLsb' lo len = pattern.extractLsb' lo len := by
  rw [← h, BitVec.extractLsb'_and, hmask, BitVec.and_allOnes]

theorem mem_ir_rf {v : Variant} : v ∈ [Variant.ir, .rf] ↔ (v != .enc) = true := by
  cases v <;> decide

theorem mem_enc_ir_rf (v : Variant) : v ∈ [Variant.enc, .ir, .rf] := by
  cases v <;> decide

/-- Outside ENC the bits 7:1 of `init` must be clear (R114). -/
theorem initLegal_of_ne_enc {v : Variant} {init : Byte} (hv : v ≠ .enc) :
    initLegal v init = true ↔ init &&& 0xFE#8 = 0#8 := by
  simp [initLegal, hv]

/-- A word with the bits of a row and one of its variants decodes to an instruction that is legal there. The cases are
in the order of `stimRows`. -/
theorem decodeStim_of_stimLegal {v : Variant} {w : StimWord} (h : stimLegal v w = true) :
    ∃ i, decodeStim w = .ok i ∧ i.listedIn v = true ∧ i.operandsLegalIn v = true := by
  obtain ⟨r, hr, hw, hv⟩ := (stimLegal_iff v w).1 h
  simp only [stimRows, List.mem_cons, List.not_mem_nil, or_false] at hr
  rcases hr with rfl | rfl | rfl | rfl | rfl | rfl | rfl | rfl
  all_goals have hop := extract_of_masked hw 28 4 rfl
  · have hres := extract_of_masked hw 8 20 rfl
    exact ⟨.pin (w.extractLsb' 0 8), by simp [decodeStim, hop, hres], beq_iff_eq.2 (List.mem_singleton.1 hv), rfl⟩
  · have hres := extract_of_masked hw 2 26 rfl
    exact ⟨.pstep (w.getLsbD 0) (w.getLsbD 1), by simp [decodeStim, hop, hres], mem_ir_rf.1 hv, rfl⟩
  · have hres := extract_of_masked hw 0 28 rfl
    exact ⟨.sync, by simp [decodeStim, hop, hres], rfl, rfl⟩
  · have hres := extract_of_masked hw 0 28 rfl
    exact ⟨.cstep, by simp [decodeStim, hop, hres], rfl, rfl⟩
  · have hres := extract_of_masked hw 8 20 rfl
    obtain rfl := List.mem_singleton.1 hv
    exact ⟨.reset (w.extractLsb' 0 8), by simp [decodeStim, hop, hres], rfl, rfl⟩
  · have hres := extract_of_masked hw 8 20 rfl
    have hinit : w.extractLsb' 0 8 &&& 0xFE#8 = 0#8 := by
      simpa [BitVec.extractLsb'_and] using congrArg (BitVec.extractLsb' 0 8) hw
    exact ⟨.reset (w.extractLsb' 0 8), by simp [decodeStim, hop, hres], rfl,
      (initLegal_of_ne_enc (bne_iff_ne.1 (mem_ir_rf.1 hv))).2 hinit⟩
  · have hres := extract_of_masked hw 1 27 rfl
    exact ⟨.rfen (w.getLsbD 0), by simp [decodeStim, hop, hres], beq_iff_eq.2 (List.mem_singleton.1 hv), rfl⟩
  · have hres := extract_of_masked hw 0 28 rfl
    exact ⟨.tmo, by simp [decodeStim, hop, hres], beq_iff_eq.2 (List.mem_singleton.1 hv), rfl⟩

theorem resetWord_masked {init : Byte} (h : init &&& 0xFE#8 = 0#8) :
    stimWord 0x5#4 init &&& 0xFFFFFFFE#32 = 0x50000000#32 := by
  refine (append_and_append 0x5#4 0xF#4 (0#20 ++ init) (0xFFFFF#20 ++ 0xFE#8)).trans ?_
  rw [append_and_append, h]
  rfl

/-- The word of an instruction that is legal in a variant has the bits of a row that lists the variant. -/
theorem stimLegal_of_encode {v : Variant} {w : StimWord} {i : Instr} (h : encode i = .stim w)
    (hlisted : i.listedIn v = true) (hops : i.operandsLegalIn v = true) : stimLegal v w = true := by
  cases i with
  | pin x =>
    cases h
    exact stimLegal_of_row 0 (Laws.EncodeMatchesRow.pin x) (List.mem_singleton.2 (beq_iff_eq.1 hlisted))
  | pstep lvl tick =>
    cases h
    exact stimLegal_of_row 1 (Laws.EncodeMatchesRow.pstep lvl tick) (mem_ir_rf.2 hlisted)
  | sync =>
    cases h
    exact stimLegal_of_row 2 Laws.EncodeMatchesRow.sync (mem_enc_ir_rf v)
  | cstep =>
    cases h
    exact stimLegal_of_row 3 Laws.EncodeMatchesRow.cstep (mem_enc_ir_rf v)
  | reset init =>
    cases h
    by_cases hv : v = .enc
    · exact stimLegal_of_row 4 (Laws.EncodeMatchesRow.reset init) (List.mem_singleton.2 hv)
    · exact stimLegal_of_row 5 (resetWord_masked ((initLegal_of_ne_enc hv).1 hops)) (mem_ir_rf.2 (bne_iff_ne.2 hv))
  | rfen x =>
    cases h
    exact stimLegal_of_row 6 (Laws.EncodeMatchesRow.rfen x) (List.mem_singleton.2 (beq_iff_eq.1 hlisted))
  | tmo =>
    cases h
    exact stimLegal_of_row 7 Laws.EncodeMatchesRow.tmo (List.mem_singleton.2 (beq_iff_eq.1 hlisted))
  | _ => cases h

/-- Settles O3: the legal words are the words of the instructions that are legal in the variant, and only those answer
a next state. -/
theorem illegalStimulusWordsAreRefused : Obligations.IllegalStimulusWordsAreRefused := by
  intro s w rest hm
  refine ⟨fun hlegal => ?_, fun hillegal => ?_⟩
  · obtain ⟨i, hi, hlisted, hops⟩ := decodeStim_of_stimLegal hlegal
    rw [step_of_decodes hm hi]
    exact exec_next_of_listed hlisted hops
  · cases hd : decodeStim w with
    | error e => exact ⟨_, step_of_illegal hm hd⟩
    | ok i =>
      rw [step_of_decodes hm hd]
      refine exec_refused_of_not_next fun t ht => ?_
      obtain ⟨hlisted, hops⟩ := exec_next_listed _ _ _ ht
      have hlegal := stimLegal_of_encode (encode_of_decodeStim hd) hlisted hops
      exact Bool.false_ne_true (hillegal.symm.trans hlegal)

/-! ### Event words as appended (30_encoding.md R108, R109) -/

/-- An event row appends its word and changes nothing else, in a variant it lists. -/
theorem inVariant_emit {listed : Bool} {k : EventKind} {p : BitVec 32} {w : EventWord} (s : State)
    (hlisted : listed = true) (hw : eventWord k p = w) :
    inVariant listed (emit k p s) = .next { s with out := s.out ++ [w] } := by
  rw [← hw]
  exact if_pos hlisted

/-- A zero-extended field stands in the low bits of the word, zeros between it and the field above. -/
theorem append_setWidth {l m n : Nat} (a : BitVec l) (x : BitVec n) :
    a ++ x.setWidth (m + n) = (a ++ 0#m ++ x).cast (Nat.add_assoc l m n) := by
  apply BitVec.eq_of_toNat_eq
  have hx : x.toNat < 2 ^ (m + n) := Nat.lt_of_lt_of_le x.isLt (Nat.pow_le_pow_right Nat.two_pos (Nat.le_add_left n m))
  simp [BitVec.toNat_append, Nat.mod_eq_of_lt hx, Nat.shiftLeft_add]

/-- Settles O50, row by row. -/
theorem eventWordsAreAppended : Obligations.EventWordsAreAppended := by
  intro count duration value s
  have appends {v : Variant} {k : EventKind} {p : BitVec 32} {w : EventWord} (hv : s.params.variant = v) :=
    inVariant_emit (k := k) (p := p) (w := w) s (beq_iff_eq.2 hv)
  exact ⟨fun hv => ⟨appends hv rfl, appends hv rfl, appends hv (append_setWidth (m := 24) _ count),
      appends hv (append_setWidth (m := 24) _ count)⟩,
    fun hv => ⟨appends hv rfl, appends hv rfl, appends hv rfl⟩,
    fun hv => appends hv (append_setWidth (m := 8) _ value)⟩

/-! ### `SETTLE` (30_encoding.md R116, 40_fifo.md R133) -/

/-- The state after `SETTLE`: every stage holds `wr_gray`. -/
def settle (s : State) : State := { s with wsync := List.replicate s.params.syncStages s.wrGray }

/-- One synchroniser step per stage puts `wr_gray` into every stage. -/
theorem syncTimes_stages {s : State} (hs : StagesMatch s) : syncTimes s.params.syncStages s = settle s := by
  rw [settle, ← hs, syncTimes_eq _ s (Nat.le_refl _), Nat.sub_self, List.take_zero, List.append_nil]

/-- The history after `SETTLE`: every stage has seen every push. -/
def History.settled (h : History) (s : State) : History :=
  { h with seen := List.replicate s.params.syncStages s.nPush }

theorem getLastD_replicate {α : Type} {n : Nat} (hn : 0 < n) (a d : α) : (List.replicate n a).getLastD d = a := by
  rw [List.getLastD_eq_getLast?, List.getLast?_replicate, if_neg (by omega), Option.getD_some]

theorem History.view_settled {h : History} {s : State} (hs : 0 < s.params.syncStages) :
    (h.settled s).view = s.nPush :=
  getLastD_replicate hs _ _

theorem Tracks.stages_pos {s : State} {h : History} (k : Tracks s h) : 0 < s.params.syncStages :=
  Nat.lt_of_lt_of_le Nat.two_pos k.params_legal.1

theorem Tracks.stagesMatch {s : State} {h : History} (k : Tracks s h) : StagesMatch s := by
  rw [StagesMatch, k.stages, List.length_map, k.stage_count]

theorem Tracks.wrGray {s : State} {h : History} (k : Tracks s h) : s.wrGray = grayOf s.params s.nPush := by
  rw [k.gray.1, k.write_cursor, grayOf]

theorem Tracks.settle {s : State} {h : History} (k : Tracks s h) : Tracks (settle s) (h.settled s) where
  params_legal := k.params_legal
  pushed_count := k.pushed_count
  popped_count := k.popped_count
  write_cursor := k.write_cursor
  read_cursor := k.read_cursor
  gray := k.gray
  stages := by
    rw [History.settled, List.map_replicate]
    exact congrArg (List.replicate _) k.wrGray
  stage_count := List.length_replicate
  seen_order := by
    have hpushes : (Machine.settle s).nPush = s.nPush := rfl
    simp [History.settled, hpushes, List.pairwise_replicate]
  popped_seen := by
    rw [History.view_settled k.stages_pos]
    exact Nat.le_trans k.popped_seen k.view_le
  window := k.window

/-! ### Pops until nothing is pending (40_fifo.md R140) -/

/-- With every push seen and no overrun a sample is pending exactly while fewer were popped than pushed. -/
theorem Tracks.pending_iff_lt {s : State} {h : History} (k : Tracks s h) (hview : h.view = s.nPush)
    (ho : NoOverrun s) : pending s = true ↔ s.nPop < s.nPush := by
  refine ⟨fun hp => hview ▸ k.popped_lt_view hp, fun hlt => ?_⟩
  rw [k.pending_iff, hview]
  exact (mod_ne_of_lt_of_lt_add hlt ho).symm

theorem popWhile_of_pending {s : State} (fuel : Nat) (hp : pending s = true) :
    popWhile (fuel + 1) s = ((pop s).1 :: (popWhile fuel (pop s).2).1, (popWhile fuel (pop s).2).2) :=
  if_pos hp

theorem popWhile_of_not_pending {s : State} (fuel : Nat) (hp : pending s = false) : popWhile fuel s = ([], s) := by
  cases fuel with
  | zero => rfl
  | succ n => rw [popWhile, hp, if_neg Bool.false_ne_true]

theorem Tracks.popWhile_done {s : State} {h : History} (k : Tracks s h) (hview : h.view = s.nPush) (ho : NoOverrun s)
    (fuel : Nat) (hdone : s.nPush ≤ s.nPop) :
    (popWhile fuel s).1 = h.pushed.drop s.nPop ∧ pending (popWhile fuel s).2 = false := by
  have hp : pending s = false := eq_false_of_ne_true fun hp => Nat.not_lt.2 hdone ((k.pending_iff_lt hview ho).1 hp)
  rw [popWhile_of_not_pending fuel hp, List.drop_eq_nil_of_le (k.pushed_count ▸ hdone)]
  exact ⟨rfl, hp⟩

/-- With every push seen and no overrun the pops return the samples not yet popped, in push order, and leave none. -/
theorem Tracks.popWhile_settled {s : State} {h : History} (k : Tracks s h) (hview : h.view = s.nPush)
    (ho : NoOverrun s) {fuel : Nat} (hfuel : s.nPush ≤ s.nPop + fuel) :
    (popWhile fuel s).1 = h.pushed.drop s.nPop ∧ pending (popWhile fuel s).2 = false := by
  induction fuel generalizing s h with
  | zero => exact k.popWhile_done hview ho 0 hfuel
  | succ n ih =>
    rcases Nat.lt_or_ge s.nPop s.nPush with hlt | hge
    · have hp := (k.pending_iff_lt hview ho).2 hlt
      obtain ⟨w, hw, hpop⟩ := k.pop_next ho hp
      obtain ⟨hlen, hget⟩ := List.getElem?_eq_some_iff.1 hw
      have hnext : NoOverrun (Machine.pop s).2 := by rw [NoOverrun, pop_nPush, pop_nPop, pop_params]; omega
      have hrest := ih (k.pop hp) (hview.trans (pop_nPush s).symm) hnext (by rw [pop_nPush, pop_nPop]; omega)
      rw [popWhile_of_pending n hp, List.drop_eq_getElem_cons hlen, hget, hrest.1, pop_nPop, hpop]
      exact ⟨rfl, hpop ▸ hrest.2⟩
    · exact k.popWhile_done hview ho (n + 1) hge

/-- Settles O19: after `SETTLE` every push is seen, and `NoOverrun` bounds the pops left by `DEPTH` - 1. -/
theorem settleThenPopsReturnTheRest : Obligations.SettleThenPopsReturnTheRest := by
  intro s h k ho
  have hfuel : s.nPush ≤ s.nPop + (s.params.depth - 1) := by
    simp only [NoOverrun] at ho
    omega
  rw [syncTimes_stages k.stagesMatch]
  exact k.settle.popWhile_settled (History.view_settled k.stages_pos) ho hfuel

/-! ### `DRAIN` (30_encoding.md R116, 45_control.md R258, R262) -/

theorem execAll_append {is js : List Instr} {s t : State} (h : execAll is s = .next t) :
    execAll (is ++ js) s = execAll js t := by
  induction is generalizing s with
  | nil => rw [← Host.Outcome.next.inj h]; rfl
  | cons i is ih =>
    rw [List.cons_append, execAll]
    rw [execAll] at h
    split at h
    next u hu => rw [ih h]
    next => cases h
    next => cases h

theorem execAll_syncs (n : Nat) (s : State) : execAll (List.replicate n .sync) s = .next (syncTimes n s) := by
  induction n generalizing s with
  | zero => rfl
  | succ n ih => exact ih (syncShift s)

/-- The last stage shows `wr_gray`, and the write cursor is `m` samples, less than a lap, ahead of the read cursor,
which stands at the count `r` modulo `DEPTH`. -/
structure SettledBehind (s : State) (r m : Nat) : Prop where
  ptrW : s.params.ptrW ≤ 8
  within : m < s.params.depth
  gray : GrayCoherent s
  last_stage : lastStage s = s.wrGray
  write_cursor : s.wrBin = cursorOf s.params (r + m)
  read_cursor : s.rdBin = cursorOf s.params r

theorem SettledBehind.pending_iff {s : State} {r m : Nat} (k : SettledBehind s r m) :
    pending s = true ↔ 0 < m := by
  rw [pending, k.last_stage, k.gray.1, k.gray.2, bne_iff_ne, Ne, bin2gray_inj, k.write_cursor, k.read_cursor,
    cursorOf_eq_iff _ _ _ k.ptrW]
  refine ⟨fun hne => Nat.pos_of_ne_zero fun h0 => hne (by rw [h0, Nat.add_zero]), fun hpos => ?_⟩
  exact mod_ne_of_lt_of_lt_add (Nat.lt_add_of_pos_right hpos) (Nat.add_lt_add_left k.within r)

theorem SettledBehind.of_sameFifo {s t : State} {r m : Nat} (k : SettledBehind s r m) (f : SameFifo s t) :
    SettledBehind t r m where
  ptrW := f.params ▸ k.ptrW
  within := f.params ▸ k.within
  gray := by rw [GrayCoherent, f.wrGray, f.wrBin, f.rdGray, f.rdBin]; exact k.gray
  last_stage := by rw [lastStage, f.wsync, f.wrGray]; exact k.last_stage
  write_cursor := by rw [f.wrBin, f.params]; exact k.write_cursor
  read_cursor := by rw [f.rdBin, f.params]; exact k.read_cursor

theorem SettledBehind.pop {s : State} {r m : Nat} (k : SettledBehind s r (m + 1)) :
    SettledBehind (pop s).2 (r + 1) m where
  ptrW := (pop_params s).symm ▸ k.ptrW
  within := (pop_params s).symm ▸ Nat.lt_of_succ_lt k.within
  gray := ⟨by rw [pop_wrGray, pop_wrBin]; exact k.gray.1, by rw [pop_rdGray, pop_rdBin]⟩
  last_stage := by rw [lastStage, pop_wsync, pop_wrGray]; exact k.last_stage
  write_cursor := by rw [pop_wrBin, pop_params, k.write_cursor, Nat.add_right_comm, Nat.add_assoc]
  read_cursor := by rw [pop_rdBin, pop_params, k.read_cursor, cursorSucc_cursorOf _ _ k.ptrW]

/-- To the FIFO a `CSTEP` with a sample pending is a pop. -/
theorem exec_cstep_of_pending {s : State} (hp : pending s = true) :
    ∃ t, exec .cstep s = .next t ∧ SameFifo (pop s).2 t :=
  ⟨_, congrArg Host.Outcome.next (if_pos hp), (decoderStep_frame (pop s).1 (pop s).2).sameFifo⟩

/-- As many `CSTEP`s as samples are left catch up with the write cursor. -/
theorem SettledBehind.execAll_csteps {s : State} {r m : Nat} (k : SettledBehind s r m) :
    ∃ t, execAll (List.replicate m .cstep) s = .next t ∧ SettledBehind t (r + m) 0 ∧ t.wrBin = s.wrBin ∧
      t.wsync = s.wsync ∧ t.nPop = s.nPop + m := by
  induction m generalizing s r with
  | zero => exact ⟨s, rfl, k, rfl, rfl, rfl⟩
  | succ m ih =>
    obtain ⟨u, hu, f⟩ := exec_cstep_of_pending (k.pending_iff.2 m.succ_pos)
    obtain ⟨t, ht, kt, hwr, hws, hn⟩ := ih (k.pop.of_sameFifo f)
    refine ⟨t, ?_, ?_, ?_, ?_, ?_⟩
    · rw [List.replicate_succ, execAll, hu]
      exact ht
    · rwa [Nat.add_right_comm, Nat.add_assoc] at kt
    · rw [hwr, f.wrBin, pop_wrBin]
    · rw [hws, f.wsync, pop_wsync]
    · rw [hn, f.nPop, pop_nPop, Nat.add_right_comm, Nat.add_assoc]

theorem cursorOf_of_lt {p : Params} {b : Byte} (hb : b.toNat < p.depth) : cursorOf p b.toNat = b := by
  rw [cursorOf, Nat.mod_eq_of_lt hb, BitVec.ofNat_toNat, BitVec.setWidth_eq]

/-- A cursor is its distance from another one further on. -/
theorem cursorOf_add_cursorDist {p : Params} {a b : Byte} (hp : p.ptrW ≤ 8) (ha : a.toNat < p.depth)
    (hb : b.toNat < p.depth) : cursorOf p (b.toNat + cursorDist p a b) = a := by
  refine Eq.trans ?_ (cursorOf_of_lt ha)
  rw [cursorOf_eq_iff _ _ _ hp, cursorDist_eq p a b hp hb, Nat.add_mod_mod,
    Nat.add_sub_cancel' (by omega), Nat.add_mod_right]

theorem settledBehind_after_settle {s : State} (hp : s.params.ptrW ≤ 8) (hstages : 0 < s.params.syncStages)
    (hgray : GrayCoherent s) (hcur : CursorsInRange s) :
    SettledBehind (settle s) s.rdBin.toNat (countSettled s) where
  ptrW := hp
  within := cursorDist_lt _ _ _ hp
  gray := hgray
  last_stage := getLastD_replicate hstages _ _
  write_cursor := (cursorOf_add_cursorDist hp hcur.1 hcur.2).symm
  read_cursor := (cursorOf_of_lt hcur.2).symm

/-- Settles O20: the `SYNC`s put `wr_gray` into every stage, and each `CSTEP` brings the read cursor one sample
closer. -/
theorem drainEndsQuiescent : Obligations.DrainEndsQuiescent := by
  intro s hlegal hmatch hgray hcur
  obtain ⟨hstages, -, -, hptr, -⟩ := hlegal
  have hsettle := (execAll_syncs s.params.syncStages s).trans (congrArg _ (syncTimes_stages hmatch))
  have k := settledBehind_after_settle hptr (Nat.lt_of_lt_of_le Nat.two_pos hstages) hgray hcur
  obtain ⟨t, ht, kt, (hwr : t.wrBin = s.wrBin), hws, (hn : t.nPop = s.nPop + countSettled s)⟩ := k.execAll_csteps
  refine ⟨t, (execAll_append hsettle).trans ht, ?_, hws, ?_, ?_⟩
  · exact eq_false_of_ne_true fun hp => absurd (kt.pending_iff.1 hp) (Nat.lt_irrefl 0)
  · rw [kt.read_cursor, ← hwr, kt.write_cursor, Nat.add_zero]
  · rw [hn, countSettled, cursorDist_eq _ _ _ hptr hcur.2]

end Sys2Proof.Machine

/-!
SUPPORT. The statements of the FIFO family: the synchroniser step, the push and the pop with the steps they happen in,
the raw read port, and the producer's independence of the consumer.
-/
namespace Sys2Proof.Machine

/-! ### `SYNC` (40_fifo.md R133) -/

theorem syncShift_stages_length (s : State) : (syncShift s).wsync.length = s.wsync.length := by
  rw [syncShift_wsync, List.length_dropLast, List.length_cons, Nat.add_sub_cancel]

/-- Each stage takes what stood before it in the row of `wr_gray` and the stages. -/
theorem syncShift_stage {s : State} {k : Nat} (hk : k < s.wsync.length) :
    (syncShift s).wsync[k]? = (s.wrGray :: s.wsync)[k]? := by
  rw [syncShift_wsync, List.getElem?_dropLast, List.length_cons, Nat.add_sub_cancel, if_pos hk]

/-- Settles O8: `SYNC` is the shift, and one shift per stage is `SETTLE`. -/
theorem syncShiftsTheStages : Obligations.SyncShiftsTheStages := by
  intro s hmatch hlegal
  have hpos : 0 < s.wsync.length := by rw [hmatch]; exact Nat.lt_of_lt_of_le Nat.two_pos hlegal.1
  refine ⟨⟨syncShift s, rfl, syncShift_stage hpos, fun k hk => ?_, ?_, rfl⟩, ?_⟩
  · rw [← hmatch] at hk
    exact syncShift_stage hk
  · rw [syncShift_stages_length, hmatch]
  · rw [execAll_syncs, syncTimes_stages hmatch, settle]

/-! ### The write side of the FIFO (40_fifo.md R130) -/

/-- What a push reads and writes agrees. -/
structure SameWriteSide (s t : State) : Prop where
  params : t.params = s.params
  mem : t.mem = s.mem
  wrBin : t.wrBin = s.wrBin
  wrGray : t.wrGray = s.wrGray
  nPush : t.nPush = s.nPush

theorem SameFifo.writeSide {s t : State} (f : SameFifo s t) : SameWriteSide s t :=
  ⟨f.params, f.mem, f.wrBin, f.wrGray, f.nPush⟩

theorem SameProducer.writeSide {s t : State} (k : SameProducer s t) : SameWriteSide s t :=
  ⟨k.params, k.mem, k.wrBin, k.wrGray, k.nPush⟩

/-- A push reads nothing but the write side. -/
theorem SameWriteSide.push {s t : State} (k : SameWriteSide s t) (w : Slot) :
    SameWriteSide (push w s) (push w t) where
  params := k.params
  mem := by rw [push_mem, push_mem, k.mem, k.wrBin, k.params]
  wrBin := by rw [push_wrBin, push_wrBin, k.wrBin, k.params]
  wrGray := by rw [push_wrGray, push_wrGray, k.wrBin, k.params]
  nPush := by rw [push_nPush, push_nPush, k.nPush]

theorem SameWriteSide.pushAll {s t : State} (k : SameWriteSide s t) (ws : List Slot) :
    SameWriteSide (pushAll ws s) (pushAll ws t) := by
  induction ws generalizing s t with
  | nil => exact k
  | cons w ws ih => exact ih (k.push w)

/-- To the write side a `PSTEP` is the pushes of the samples that survive. -/
theorem pstepStep_writeSide (lvl tick : Bool) (s : State) :
    SameWriteSide (pushAll (survivors lvl tick s) s) (pstepStep lvl tick s) :=
  have k := (captureRegisters_sameFifo lvl tick s).writeSide.pushAll (survivors lvl tick s)
  ⟨k.params, k.mem, k.wrBin, k.wrGray, k.nPush⟩

/-! ### Pushes and the steps they happen in (40_fifo.md R130, R131) -/

/-- A producer step pushes at most two samples. -/
theorem exec_producer_nPush {i : Instr} {s t : State} (hp : isProducerStep i = true) (h : exec i s = .next t) :
    ∃ n, n ≤ 2 ∧ t.nPush = s.nPush + n := by
  obtain ⟨ws, u, hlen, -, hbase, hstep⟩ := exec_producer_pushes hp h
  exact ⟨ws.length, hlen, by rw [hstep.nPush, pushAll_nPush, hbase.nPush]⟩

/-- Settles O10: a push is a memory write and a cursor step, and only the producer steps push. -/
theorem pushWritesSlotThenPublishes : Obligations.PushWritesSlotThenPublishes := by
  intro s
  refine ⟨fun w => ⟨memRead_memWrite_same _ _ _, fun k => memRead_memWrite_other _ _ k _, rfl⟩,
    cursorSucc_toNat s.params s.wrBin, fun i t h hreset => ?_, fun v t h => ?_, fun lvl tick t h => ?_⟩
  · cases hprod : isProducerStep i with
    | true =>
      obtain ⟨n, hn, hpush⟩ := exec_producer_nPush hprod h
      exact ⟨by omega, by omega, fun hnot => absurd hnot.symm Bool.false_ne_true⟩
    | false =>
      have hpush := (exec_producer hprod hreset h).nPush
      exact ⟨by omega, by omega, fun _ => hpush⟩
  · obtain ⟨-, rfl⟩ := (inVariant_next _ _ _).1 h
    have k := (pinStep_sameFifo v s).writeSide
    exact ⟨k.mem, k.wrBin, k.wrGray, k.nPush⟩
  · obtain ⟨-, rfl⟩ := (inVariant_next _ _ _).1 h
    have k := pstepStep_writeSide lvl tick s
    exact ⟨survivors lvl tick s, List.take_sublist _ _, k.mem, k.wrBin, k.wrGray, k.nPush⟩

/-! ### Pops and the steps they happen in (40_fifo.md R136) -/

theorem readSlot_of_listed {s : State} {w : Slot} (hne : s.rdBin ≠ s.wrBin)
    (hw : memRead s.mem s.rdBin.toNat = some w) : readSlot s = (w, s) := by
  have hc : collision s = false := beq_eq_false_iff_ne.2 hne
  rw [readSlot, hc, if_neg Bool.false_ne_true, hw]

theorem readSlot_of_collision {s : State} (heq : s.rdBin = s.wrBin) : readSlot s = draw s :=
  if_pos (beq_iff_eq.2 heq)

theorem exec_cstep_nPop {s t : State} (h : exec .cstep s = .next t) :
    t.nPop = s.nPop + if pending s = true then 1 else 0 := by
  rcases execCstep_cases h with ⟨hp, rfl⟩ | ⟨hp, rfl⟩
  · rw [(decoderStep_frame _ _).nPop, pop_nPop, if_pos hp]
  · rw [hp, if_neg Bool.false_ne_true, Nat.add_zero]

/-- No instruction but `CSTEP` and `RESET` moves the pop counter. -/
theorem exec_nPop_of_ne_cstep {i : Instr} {s t : State} (hc : i ≠ .cstep) (hr : isReset i = false)
    (h : exec i s = .next t) : t.nPop = s.nPop := by
  cases i with
  | cstep => exact absurd rfl hc
  | reset => exact absurd hr.symm Bool.false_ne_true
  | pin | pstep => exact (exec_consumer rfl h).nPop
  | sync => exact Host.Outcome.next.inj h ▸ syncShift_nPop s
  | rfen v =>
    obtain ⟨-, rfl⟩ := (inVariant_next _ _ _).1 h
    exact (rfenStep_sameFifo v s).nPop
  | tmo =>
    obtain ⟨-, rfl⟩ := (inVariant_next _ _ _).1 h
    exact (tmoStep_frame s).nPop
  | _ => exact (exec_decoderOutcome rfl hc h).frame.nPop

/-- Settles O11: a pop is a slot read and the advance, and only a pending `CSTEP` pops. -/
theorem popReadsOrDrawsAndAdvances : Obligations.PopReadsOrDrawsAndAdvances := by
  intro s
  refine ⟨fun w hne hw => ?_, fun heq => ?_, cursorSucc_toNat s.params s.rdBin, fun i t h hreset => ?_⟩
  · rw [pop, readSlot_of_listed hne hw, advanceRead]
  · rw [pop, readSlot_of_collision heq]
    rfl
  · by_cases hc : i = .cstep
    · subst hc
      simp only [exec_cstep_nPop h, true_and]
    · rw [exec_nPop_of_ne_cstep hc hreset h, if_neg fun hcp => hc hcp.1, Nat.add_zero]

/-! ### The raw read port (40_fifo.md R137, R138) -/

theorem readPort_of_not_pending {s : State} (hp : pending s = false) :
    readPort true s = (some (draw s).1, (draw s).2) := by
  rw [readPort, fifoEmpty, hp]
  rfl

theorem readPort_of_pending {s : State} (hp : pending s = true) :
    readPort true s = (some (pop s).1, (pop s).2) := by
  rw [readPort, fifoEmpty, hp]
  rfl

/-- Settles O13, by the port's three cases. -/
theorem rawReadPortIgnoresAnEmptyRead : Obligations.RawReadPortIgnoresAnEmptyRead := fun _ =>
  ⟨readPort_of_not_pending, readPort_of_pending, rfl⟩

/-! ### The producer reads no consumer state (20_memory.md R76, 40_fifo.md R131) -/

theorem SameProducer.pushAll {s t : State} (k : SameProducer s t) (ws : List Slot) :
    SameProducer (pushAll ws s) (pushAll ws t) where
  params := (k.writeSide.pushAll ws).params
  mem := (k.writeSide.pushAll ws).mem
  wrBin := (k.writeSide.pushAll ws).wrBin
  wrGray := (k.writeSide.pushAll ws).wrGray
  nPush := (k.writeSide.pushAll ws).nPush
  pinsPrev := by rw [pushAll_pinsPrev, pushAll_pinsPrev, k.pinsPrev]
  tcnt := by rw [pushAll_tcnt, pushAll_tcnt, k.tcnt]
  edgeSel := by rw [pushAll_edgeSel, pushAll_edgeSel, k.edgeSel]
  lvlPrev := by rw [pushAll_lvlPrev, pushAll_lvlPrev, k.lvlPrev]
  passOut := by rw [pushAll_passOut, pushAll_passOut, k.passOut]
  pqOcc := by rw [pushAll_pqOcc, pushAll_pqOcc, k.pqOcc]

theorem SameProducer.pinSamples_eq {s t : State} (k : SameProducer s t) (v : Byte) :
    pinSamples v t = pinSamples v s := by
  have hchanged : pinChanged v t = pinChanged v s := by rw [pinChanged, pinChanged, k.pinsPrev, k.params]
  rw [pinSamples, pinSamples, hchanged]

theorem SameProducer.pinStep {s t : State} (k : SameProducer s t) (v : Byte) :
    SameProducer (pinStep v s) (pinStep v t) := by
  unfold Machine.pinStep
  rw [k.pinSamples_eq v]
  obtain ⟨hparams, hmem, hwrBin, hwrGray, -, htcnt, hsel, hlvl, hpass, hocc, hpush⟩ :=
    k.pushAll (pinSamples v s)
  exact ⟨hparams, hmem, hwrBin, hwrGray, rfl, htcnt, hsel, hlvl, hpass, hocc, hpush⟩

theorem SameProducer.edgeCaptured_eq {s t : State} (k : SameProducer s t) (lvl : Bool) :
    edgeCaptured lvl t = edgeCaptured lvl s := by
  rw [edgeCaptured, edgeCaptured, edgeSeen, edgeSeen, k.lvlPrev, k.edgeSel]

theorem SameProducer.generated_eq {s t : State} (k : SameProducer s t) (lvl tick : Bool) :
    generated lvl tick t = generated lvl tick s := by
  have hwraps : counterWraps tick t = counterWraps tick s := by rw [counterWraps, counterWraps, k.tcnt, k.params]
  rw [generated, generated, k.edgeCaptured_eq lvl, hwraps, k.params, k.tcnt]

theorem SameProducer.survivors_eq {s t : State} (k : SameProducer s t) (lvl tick : Bool) :
    survivors lvl tick t = survivors lvl tick s := by
  rw [survivors, survivors, k.generated_eq lvl tick, skidRoom, skidRoom, k.params, k.pqOcc]

theorem SameProducer.skidAfter_eq {s t : State} (k : SameProducer s t) (lvl tick : Bool) :
    skidAfter lvl tick t = skidAfter lvl tick s := by
  rw [skidAfter, skidAfter, k.survivors_eq lvl tick, k.pqOcc]

theorem SameProducer.captureRegisters {s t : State} (k : SameProducer s t) (lvl tick : Bool) :
    SameProducer (countTick tick (detectEdge lvl s)) (countTick tick (detectEdge lvl t)) where
  params := by simp [k.params]
  mem := by simp [k.mem]
  wrBin := by simp [k.wrBin]
  wrGray := by simp [k.wrGray]
  pinsPrev := by simp [k.pinsPrev]
  tcnt := by simp [k.tcnt, k.params]
  edgeSel := by simp [k.edgeCaptured_eq lvl, k.edgeSel]
  lvlPrev := by simp
  passOut := by simp [k.edgeCaptured_eq lvl, k.params, k.passOut]
  pqOcc := by simp [k.pqOcc]
  nPush := by simp [k.nPush]

theorem SameProducer.pstepStep {s t : State} (k : SameProducer s t) (lvl tick : Bool) :
    SameProducer (pstepStep lvl tick s) (pstepStep lvl tick t) := by
  unfold Machine.pstepStep
  rw [k.survivors_eq lvl tick, k.skidAfter_eq lvl tick]
  obtain ⟨hparams, hmem, hwrBin, hwrGray, hpins, htcnt, hsel, hlvl, hpass, -, hpush⟩ :=
    (k.captureRegisters lvl tick).pushAll (survivors lvl tick s)
  exact ⟨hparams, hmem, hwrBin, hwrGray, hpins, htcnt, hsel, hlvl, hpass, rfl, hpush⟩

/-- Settles O23: whether a row answers rests on the parameters alone, and what it does on the producer's registers. -/
theorem producerIgnoresTheConsumer : Obligations.ProducerIgnoresTheConsumer := by
  intro i s₁ s₂ t₁ hprod k h₁
  obtain ⟨hlisted, hops⟩ := exec_next_listed i s₁ t₁ h₁
  rw [← k.params] at hlisted hops
  obtain ⟨t₂, h₂⟩ := exec_next_of_listed hlisted hops
  refine ⟨t₂, h₂, ?_⟩
  cases i with
  | pin v =>
    obtain ⟨-, rfl⟩ := (inVariant_next _ _ _).1 h₁
    obtain ⟨-, rfl⟩ := (inVariant_next _ _ _).1 h₂
    exact k.pinStep v
  | pstep lvl tick =>
    obtain ⟨-, rfl⟩ := (inVariant_next _ _ _).1 h₁
    obtain ⟨-, rfl⟩ := (inVariant_next _ _ _).1 h₂
    exact k.pstepStep lvl tick
  | _ => exact absurd hprod Bool.false_ne_true

end Sys2Proof.Machine

/-!
SUPPORT. The statements of the capture family: the snapshot of `PIN`, the sentinels of a run of ticks with the level
held, and the tick count the IR decoder recovers from them.
-/
namespace Sys2Proof.Machine

/-! ### `PIN` (41_capture.md R152) -/

theorem execPin_eq (v : Byte) {s : State} (hv : s.params.variant = .enc) : exec (.pin v) s = .next (pinStep v s) :=
  (inVariant_next _ _ _).2 ⟨by rw [hv]; rfl, rfl⟩

theorem pinSamples_of_changed {v : Byte} {s : State} (h : (v ^^^ s.pinsPrev) &&& s.params.monMask ≠ 0#8) :
    pinSamples v s = [v.setWidth 17] :=
  if_pos (bne_iff_ne.2 h)

theorem pinSamples_of_unchanged {v : Byte} {s : State} (h : (v ^^^ s.pinsPrev) &&& s.params.monMask = 0#8) :
    pinSamples v s = [] :=
  if_neg fun hc => bne_iff_ne.1 hc h

/-- Settles O26: the samples of `PIN` are the snapshot or none. -/
theorem pinPushesOnMonitoredChange : Obligations.PinPushesOnMonitoredChange := by
  intro v s hv
  rw [execPin_eq v hv, pinStep]
  refine ⟨fun hchanged => ?_, fun hsame => ?_⟩
  · rw [pinSamples_of_changed hchanged]
    rfl
  · rw [pinSamples_of_unchanged hsame]
    rfl

/-! ### Ticks with the level held (41_capture.md R156, R157) -/

theorem SameWriteSide.trans {s t u : State} (h : SameWriteSide s t) (k : SameWriteSide t u) : SameWriteSide s u :=
  ⟨k.params.trans h.params, k.mem.trans h.mem, k.wrBin.trans h.wrBin, k.wrGray.trans h.wrGray, k.nPush.trans h.nPush⟩

theorem pstepStep_params (lvl tick : Bool) (s : State) : (pstepStep lvl tick s).params = s.params :=
  (pstepStep_consumer lvl tick s).params

theorem pstepStep_lvlPrev (lvl tick : Bool) (s : State) : (pstepStep lvl tick s).lvlPrev = lvl := by
  simp [pstepStep]

theorem pstepStep_tcnt (lvl tick : Bool) (s : State) :
    (pstepStep lvl tick s).tcnt = if tick then countSucc s.params s.tcnt else s.tcnt := by
  simp [pstepStep]

theorem skidInRange_pstepStep (lvl tick : Bool) {s : State} (h : SkidInRange s) :
    SkidInRange (pstepStep lvl tick s) := by
  rw [SkidInRange, pstepStep_params]
  exact skidAfter_le lvl tick s h

theorem execAll_cons {i : Instr} {s u : State} (is : List Instr) (h : exec i s = .next u) :
    execAll (i :: is) s = execAll is u := by
  rw [execAll, h]

/-- The laps a count completes, those of its first step apart. -/
theorem div_add_succ (c n : Nat) {d : Nat} (hd : 0 < d) :
    (c + (n + 1)) / d = (c + 1) / d + ((c + 1) % d + n) / d := by
  rw [← Nat.mul_add_div hd, ← Nat.add_assoc (d * _), Nat.div_add_mod, Nat.add_right_comm, Nat.add_assoc]

theorem paramsLegal_tsW_le {p : Params} (h : ParamsLegal p) : p.tsW ≤ 16 := by
  obtain ⟨-, -, -, -, -, -, -, hle⟩ := h
  exact hle

/-- An instance of IR or RF that stands at the level `lvl`, its counter and skid in range. -/
structure LevelHeld (lvl : Bool) (s : State) : Prop where
  variant : s.params.variant ≠ .enc
  tsW : s.params.tsW ≤ 16
  count : CountInRange s
  skid : SkidInRange s
  level : s.lvlPrev = lvl

/-- The step from the last count of a period is the one that completes the period. -/
theorem tcnt_eq_tsMask_iff {s : State} (hw : s.params.tsW ≤ 16) :
    s.tcnt = s.params.tsMask ↔ s.tcnt.toNat + 1 = 2 ^ s.params.tsW := by
  have hpos := Nat.two_pow_pos s.params.tsW
  rw [BitVec.toNat_eq, tsMask_toNat _ hw]
  omega

namespace LevelHeld

variable {lvl : Bool} {s : State}

theorem pstepStep (k : LevelHeld lvl s) : LevelHeld lvl (pstepStep lvl true s) where
  variant := by rw [pstepStep_params]; exact k.variant
  tsW := by rw [pstepStep_params]; exact k.tsW
  count := by rw [CountInRange, pstepStep_tcnt, pstepStep_params]; exact countSucc_lt s.params s.tcnt
  skid := skidInRange_pstepStep lvl true k.skid
  level := pstepStep_lvlPrev lvl true s

/-- A tick at a held level keeps one sentinel if it completes a period, and nothing else. -/
theorem survivors_eq (k : LevelHeld lvl s) :
    survivors lvl true s =
      List.replicate ((s.tcnt.toNat + 1) / 2 ^ s.params.tsW) (sentinelSample s.params) := by
  have hgen : generated lvl true s = if s.tcnt = s.params.tsMask then [sentinelSample s.params] else [] := by
    rw [generated_eq, if_neg fun hc => hc.1 k.level.symm, List.nil_append]
    simp only [true_and]
  have hkept := survivors_of_length_le_one lvl true s k.skid <| by
    rw [hgen]
    split
    · exact Nat.le_refl 1
    · exact Nat.zero_le 1
  rw [hkept, hgen]
  by_cases hlast : s.tcnt = s.params.tsMask
  · rw [if_pos hlast, (tcnt_eq_tsMask_iff k.tsW).1 hlast, Nat.div_self (Nat.two_pow_pos _)]
    rfl
  · rw [if_neg hlast, Nat.div_eq_of_lt (Nat.lt_of_le_of_ne k.count (mt (tcnt_eq_tsMask_iff k.tsW).2 hlast))]
    rfl

/-- `n` ticks advance the counter by `n` and push one sentinel for every period they complete. -/
theorem execAll_ticks (k : LevelHeld lvl s) (n : Nat) :
    ∃ t, execAll (List.replicate n (.pstep lvl true)) s = .next t ∧
      t.tcnt.toNat = (s.tcnt.toNat + n) % 2 ^ s.params.tsW ∧
      SameWriteSide
        (pushAll (List.replicate ((s.tcnt.toNat + n) / 2 ^ s.params.tsW) (sentinelSample s.params)) s) t := by
  induction n generalizing s with
  | zero =>
    refine ⟨s, rfl, (Nat.mod_eq_of_lt k.count).symm, ?_⟩
    rw [Nat.add_zero, Nat.div_eq_of_lt k.count]
    exact ⟨rfl, rfl, rfl, rfl, rfl⟩
  | succ n ih =>
    have hstep := pstepStep_writeSide lvl true s
    have hcount : (Machine.pstepStep lvl true s).tcnt.toNat = (s.tcnt.toNat + 1) % 2 ^ s.params.tsW := by
      rw [pstepStep_tcnt, if_pos rfl, countSucc_toNat _ _ k.tsW]
    obtain ⟨t, ht, hcnt, hwrite⟩ := ih k.pstepStep
    rw [pstepStep_params, hcount] at hcnt hwrite
    refine ⟨t, ?_, ?_, ?_⟩
    · rw [List.replicate_succ, execAll_cons _ (execPstep_eq lvl true k.variant), ht]
    · rw [hcnt, Nat.mod_add_mod, Nat.add_assoc, Nat.add_comm 1 n]
    · rw [div_add_succ _ _ (Nat.two_pow_pos _), ← List.replicate_append_replicate, pushAll_append, ← k.survivors_eq]
      exact (hstep.pushAll _).trans hwrite

end LevelHeld

/-- Settles O29: a period's ticks are `2 ^ TS_W`, so they complete one period and return the counter. -/
theorem oneSentinelPerCounterPeriod : Obligations.OneSentinelPerCounterPeriod := by
  intro lvl s hv hlegal hcount hskid hlvl
  have k : LevelHeld lvl s := ⟨hv, paramsLegal_tsW_le hlegal, hcount, hskid, hlvl⟩
  obtain ⟨t, ht, hcnt, hwrite⟩ := k.execAll_ticks (2 ^ s.params.tsW)
  rw [Nat.add_mod_right, Nat.mod_eq_of_lt hcount] at hcnt
  rw [Nat.add_div_right _ (Nat.two_pow_pos _), Nat.div_eq_of_lt hcount] at hwrite
  have hpush : SameWriteSide (push (sentinelSample s.params) s) t := hwrite
  refine ⟨t, ht, BitVec.eq_of_toNat_eq hcnt, hpush.nPush, hpush.wrBin, ?_, fun j hj => ?_⟩
  · rw [hpush.mem, push_mem, memRead_memWrite_same, fitSlot_sentinelSample hv]
    rfl
  · rw [hpush.mem, push_mem, memRead_memWrite_other _ _ _ _ hj]

/-! ### The ticks between two IR edges (43_decoder_ir.md R209) -/

/-- An edge after any run of sentinels: its event follows the events before the run. -/
theorem execAll_sampleIrSents_edge {n : Nat} {cur : Ts} {s u : State} (hv : u.params.variant = .ir)
    (hcur : cur ≠ u.params.sentinel) (hs : execAll (List.replicate n .sampleIrSent) s = .next u) :
    ∃ t, execAll (List.replicate n .sampleIrSent ++ [.sampleIrEdge cur]) s = .next t ∧
      t.out = u.out ++ [eventWord (irEvent cur u).1 (irEvent cur u).2] := by
  refine ⟨irStep cur u, ?_, ?_⟩
  · rw [execAll_append hs, execAll_cons _ (execSampleIrEdge_eq cur hv)]
    rfl
  · rw [irStep_edge hcur]
    rfl

theorem execSampleIrSent_shiftHistory {s : State} (hv : s.params.variant = .ir) :
    exec .sampleIrSent s = .next (shiftHistory s.params.sentinel s) := by
  rw [execSampleIrSent_eq hv, irStep_sentinel]

/-- Two sentinels fill the history, and more of them change nothing. -/
theorem execAll_sampleIrSents (n : Nat) {s : State} (hv : s.params.variant = .ir) :
    execAll (List.replicate (n + 2) .sampleIrSent) s =
      .next (shiftHistory s.params.sentinel (shiftHistory s.params.sentinel s)) := by
  induction n generalizing s with
  | zero =>
    have hfirst := execAll_cons [.sampleIrSent] (execSampleIrSent_shiftHistory hv)
    exact hfirst.trans (execAll_cons [] (execSampleIrSent_shiftHistory hv))
  | succ n ih =>
    rw [List.replicate_succ, execAll_cons _ (execSampleIrSent_shiftHistory hv)]
    exact ih hv

theorem irEvent_word_of_edge {cur : Ts} {s : State} (hedge : s.hist1 ≠ s.params.sentinel)
    (hle : s.hist1.toNat ≤ cur.toNat) :
    eventWord (irEvent cur s).1 (irEvent cur s).2 = pulseWord s.params (cur.toNat - s.hist1.toNat) := by
  rw [irEvent_word, if_neg fun h => hedge h.1, if_neg hedge, if_neg (Nat.not_lt.2 hle), plainTicks]

theorem irEvent_word_of_sentinel {cur : Ts} {s : State} (hsent : s.hist1 = s.params.sentinel)
    (hedge : s.hist2 ≠ s.params.sentinel) (hle : s.hist2.toNat ≤ cur.toNat + s.params.wrapSpan) :
    eventWord (irEvent cur s).1 (irEvent cur s).2 =
      pulseWord s.params (cur.toNat + s.params.wrapSpan - s.hist2.toNat) := by
  rw [irEvent_word, if_neg fun h => hedge h.2, if_pos hsent, pulseWord_bridgedTicks, if_pos hle]

theorem irEvent_word_of_sentinels {s : State} (cur : Ts) (hsent : s.hist1 = s.params.sentinel)
    (hsents : s.hist2 = s.params.sentinel) :
    eventWord (irEvent cur s).1 (irEvent cur s).2 = eventWord .gap 0#32 := by
  rw [irEvent_word, if_pos ⟨hsent, hsents⟩]

/-- Settles O39, by the number of wraps: the edge follows an edge, one sentinel, or a history of sentinels. -/
theorem irMeasuresTrueTicks : Obligations.IrMeasuresTrueTicks := by
  intro a n s hv hlegal hspan ha hlt hne cur wraps hcur
  subst ha
  have hcount : s.params.wrapSpan * wraps + cur.toNat = s.hist1.toNat + n := by
    have hword : s.params.wrapSpan ≤ 2 ^ 16 := hspan ▸ Nat.pow_le_pow_right Nat.two_pos (paramsLegal_tsW_le hlegal)
    have hmod := Nat.mod_lt (s.hist1.toNat + n) (Nat.zero_lt_of_lt hlt)
    rw [BitVec.toNat_ofNat, Nat.mod_eq_of_lt (Nat.lt_of_lt_of_le hmod hword), Nat.div_add_mod]
  generalize wraps = w at hcount ⊢
  match w with
  | 0 =>
    have hticks : cur.toNat - s.hist1.toNat = n := by omega
    obtain ⟨t, ht, hout⟩ := execAll_sampleIrSents_edge (n := 0) hv hcur rfl
    refine ⟨t, ht, ?_⟩
    rw [hout, irEvent_word_of_edge hne (by omega), hticks]
    rfl
  | 1 =>
    have hticks : cur.toNat + s.params.wrapSpan - s.hist1.toNat = n := by omega
    obtain ⟨t, ht, hout⟩ := execAll_sampleIrSents_edge (n := 1) (u := shiftHistory s.params.sentinel s) hv hcur
      (execAll_cons [] (execSampleIrSent_shiftHistory hv))
    refine ⟨t, ht, ?_⟩
    rw [hout, irEvent_word_of_sentinel rfl hne (Nat.le_trans (Nat.le_of_lt hlt) (Nat.le_add_left _ _)),
      ← hticks]
    rfl
  | m + 2 =>
    obtain ⟨t, ht, hout⟩ := execAll_sampleIrSents_edge
      (u := shiftHistory s.params.sentinel (shiftHistory s.params.sentinel s)) hv hcur (execAll_sampleIrSents m hv)
    refine ⟨t, ht, ?_⟩
    rw [hout, irEvent_word_of_sentinels cur rfl rfl, if_neg (by omega)]
    rfl

end Sys2Proof.Machine

/-!
SUPPORT. The statements of the ENC decoder's family: the button classifier and the rotary decoder each as a function of
its own registers, the next state of a snapshot from the two, and a turn away from the detent and back.
-/
namespace Sys2Proof.Machine

/-! ### The button concern (42_decoder_enc.md R182) -/

/-- The events of the button classifier at the level `btn` with `prev` in `button_state`. -/
def buttonEvents (btn prev : Bool) : List EventWord :=
  if btn = prev then []
  else if btn then [eventWord .buttonPressed 0#32] else [eventWord .buttonReleased 0#32]

theorem classifyButton_same (s : State) : classifyButton s.buttonState s = s := by
  rw [classifyButton, if_pos rfl]

theorem classifyButton_eq (btn : Bool) (s : State) :
    classifyButton btn s = { s with buttonState := btn, out := s.out ++ buttonEvents btn s.buttonState } := by
  by_cases hsame : btn = s.buttonState
  · subst hsame
    rw [classifyButton_same, buttonEvents, if_pos rfl, List.append_nil]
  · rw [classifyButton, buttonEvents, if_neg hsame, if_neg hsame]
    cases btn <;> rfl

/-! ### The rotary concern (42_decoder_enc.md R183 to R188) -/

theorem restCheck_of_ccw {s : State} (hccw : s.rotState.extractLsb' 0 6 = s.params.patCcw) :
    restCheck s =
      { s with
        rotCount := s.rotCount - s.params.rotStep
        out := s.out ++ [eventWord .rotCcw ((s.rotCount - s.params.rotStep).setWidth 32)] } := by
  rw [restCheck, if_pos hccw, emit]

theorem restCheck_of_cw {s : State} (hccw : s.rotState.extractLsb' 0 6 ≠ s.params.patCcw)
    (hcw : s.rotState.extractLsb' 0 6 = s.params.patCw) :
    restCheck s =
      { s with
        rotCount := s.rotCount + s.params.rotStep
        out := s.out ++ [eventWord .rotCw ((s.rotCount + s.params.rotStep).setWidth 32)] } := by
  rw [restCheck, if_neg hccw, if_pos hcw, emit]

theorem restCheck_of_neither {s : State} (hccw : s.rotState.extractLsb' 0 6 ≠ s.params.patCcw)
    (hcw : s.rotState.extractLsb' 0 6 ≠ s.params.patCw) : restCheck s = s := by
  rw [restCheck, if_neg hccw, if_neg hcw]

theorem rotaryDecode_of_same {pair : BitVec 2} {s : State} (h : pair = s.rotState.extractLsb' 0 2) :
    rotaryDecode pair s = s := by
  rw [rotaryDecode, if_pos h]

theorem rotaryDecode_of_away {pair : BitVec 2} {s : State} (hmoved : pair ≠ s.rotState.extractLsb' 0 2)
    (haway : pair ≠ s.params.rest) : rotaryDecode pair s = { s with rotState := shiftPair s.rotState pair } := by
  rw [rotaryDecode, if_neg hmoved]
  exact if_neg haway

theorem rotaryDecode_of_rest {pair : BitVec 2} {s : State} (hmoved : pair ≠ s.rotState.extractLsb' 0 2)
    (hrest : pair = s.params.rest) :
    rotaryDecode pair s = restCheck { s with rotState := shiftPair s.rotState pair } := by
  rw [rotaryDecode, if_neg hmoved]
  exact if_pos hrest

/-- A new pair that arrives at the detent with the history of a counter-clockwise turn (R184, R185). -/
abbrev TurnsCcw (p : Params) (pair : BitVec 2) (rot : Byte) : Prop :=
  pair ≠ rot.extractLsb' 0 2 ∧ pair = p.rest ∧ (shiftPair rot pair).extractLsb' 0 6 = p.patCcw

/-- A new pair that arrives at the detent with the history of a clockwise turn, tried second (R184, R186). -/
abbrev TurnsCw (p : Params) (pair : BitVec 2) (rot : Byte) : Prop :=
  pair ≠ rot.extractLsb' 0 2 ∧ pair = p.rest ∧ (shiftPair rot pair).extractLsb' 0 6 ≠ p.patCcw ∧
    (shiftPair rot pair).extractLsb' 0 6 = p.patCw

/-- `rot_state` after the rotary decoder (R183, R188). -/
def rotaryHistory (pair : BitVec 2) (rot : Byte) : Byte :=
  if pair ≠ rot.extractLsb' 0 2 then shiftPair rot pair else rot

/-- `rot_count` after the rotary decoder (R185, R186). -/
def rotaryCount (p : Params) (pair : BitVec 2) (rot count : Byte) : Byte :=
  if TurnsCcw p pair rot then count - p.rotStep else if TurnsCw p pair rot then count + p.rotStep else count

/-- The events of the rotary decoder, which carry the new count (R185 to R187). -/
def rotaryEvents (p : Params) (pair : BitVec 2) (rot count : Byte) : List EventWord :=
  if TurnsCcw p pair rot then [eventWord .rotCcw ((rotaryCount p pair rot count).setWidth 32)]
  else if TurnsCw p pair rot then [eventWord .rotCw ((rotaryCount p pair rot count).setWidth 32)]
  else []

section
variable {p : Params} {pair : BitVec 2} {rot : Byte} (count : Byte)

theorem rotaryCount_of_ccw (h : TurnsCcw p pair rot) : rotaryCount p pair rot count = count - p.rotStep :=
  if_pos h

theorem rotaryCount_of_cw (hccw : ¬ TurnsCcw p pair rot) (hcw : TurnsCw p pair rot) :
    rotaryCount p pair rot count = count + p.rotStep := by
  rw [rotaryCount, if_neg hccw, if_pos hcw]

theorem rotaryCount_of_neither (hccw : ¬ TurnsCcw p pair rot) (hcw : ¬ TurnsCw p pair rot) :
    rotaryCount p pair rot count = count := by
  rw [rotaryCount, if_neg hccw, if_neg hcw]

theorem rotaryEvents_of_neither (hccw : ¬ TurnsCcw p pair rot) (hcw : ¬ TurnsCw p pair rot) :
    rotaryEvents p pair rot count = [] := by
  rw [rotaryEvents, if_neg hccw, if_neg hcw]

end

theorem rotaryDecode_eq (pair : BitVec 2) (s : State) :
    rotaryDecode pair s =
      { s with
        rotState := rotaryHistory pair s.rotState
        rotCount := rotaryCount s.params pair s.rotState s.rotCount
        out := s.out ++ rotaryEvents s.params pair s.rotState s.rotCount } := by
  by_cases hsame : pair = s.rotState.extractLsb' 0 2
  · rw [rotaryDecode_of_same hsame, rotaryHistory, if_neg (not_not_intro hsame),
      rotaryCount_of_neither _ (fun h => h.1 hsame) (fun h => h.1 hsame),
      rotaryEvents_of_neither _ (fun h => h.1 hsame) (fun h => h.1 hsame), List.append_nil]
  rw [rotaryHistory, if_pos hsame]
  by_cases hrest : pair = s.params.rest
  · rw [rotaryDecode_of_rest hsame hrest]
    by_cases hccw : (shiftPair s.rotState pair).extractLsb' 0 6 = s.params.patCcw
    · have hturn : TurnsCcw s.params pair s.rotState := ⟨hsame, hrest, hccw⟩
      rw [restCheck_of_ccw hccw, rotaryEvents, if_pos hturn, rotaryCount_of_ccw _ hturn]
    · have hno : ¬ TurnsCcw s.params pair s.rotState := fun h => hccw h.2.2
      by_cases hcw : (shiftPair s.rotState pair).extractLsb' 0 6 = s.params.patCw
      · have hturn : TurnsCw s.params pair s.rotState := ⟨hsame, hrest, hccw, hcw⟩
        rw [restCheck_of_cw hccw hcw, rotaryEvents, if_neg hno, if_pos hturn, rotaryCount_of_cw _ hno hturn]
      · have hnone : ¬ TurnsCw s.params pair s.rotState := fun h => hcw h.2.2.2
        rw [restCheck_of_neither hccw hcw, rotaryCount_of_neither _ hno hnone, rotaryEvents_of_neither _ hno hnone,
          List.append_nil]
  · rw [rotaryDecode_of_away hsame hrest, rotaryCount_of_neither _ (fun h => hrest h.2.1) (fun h => hrest h.2.1),
      rotaryEvents_of_neither _ (fun h => hrest h.2.1) (fun h => hrest h.2.1), List.append_nil]

/-! ### The two concerns on a snapshot (42_decoder_enc.md R180, R181) -/

theorem execSampleEncSnap_eq (snap : Byte) {s : State} (hv : s.params.variant = .enc) :
    exec (.sampleEncSnap snap) s = .next (encStep snap s) :=
  (inVariant_next _ _ _).2 ⟨by rw [hv]; rfl, rfl⟩

theorem encStep_eq (snap : Byte) (s : State) :
    encStep snap s =
      { s with
        buttonState := snapBtn s.params snap
        rotState := rotaryHistory (snapPair s.params snap) s.rotState
        rotCount := rotaryCount s.params (snapPair s.params snap) s.rotState s.rotCount
        out := s.out ++ buttonEvents (snapBtn s.params snap) s.buttonState ++
          rotaryEvents s.params (snapPair s.params snap) s.rotState s.rotCount } := by
  rw [encStep, classifyButton_eq, rotaryDecode_eq]

/-- Settles O31: the decoder's next state with the button's and the rotary decoder's events spelt out. -/
theorem encSnapshotOutcome : Obligations.EncSnapshotOutcome := by
  intro snap s hv
  rw [execSampleEncSnap_eq snap hv, encStep_eq]
  rfl

/-! ### The events of each concern (42_decoder_enc.md R181) -/

theorem encStep_buttonState (snap : Byte) (s : State) :
    (encStep snap s).buttonState = snapBtn s.params snap := by
  rw [encStep_eq]

theorem encStep_rotState (snap : Byte) (s : State) :
    (encStep snap s).rotState = rotaryHistory (snapPair s.params snap) s.rotState := by
  rw [encStep_eq]

theorem encStep_rotCount (snap : Byte) (s : State) :
    (encStep snap s).rotCount = rotaryCount s.params (snapPair s.params snap) s.rotState s.rotCount := by
  rw [encStep_eq]

theorem encStep_newEvents (snap : Byte) (s : State) :
    (encStep snap s).out.drop s.out.length =
      buttonEvents (snapBtn s.params snap) s.buttonState ++
        rotaryEvents s.params (snapPair s.params snap) s.rotState s.rotCount := by
  rw [encStep_eq, List.append_assoc, List.drop_left]

/-- An event word of the kind `BUTTON_PRESSED` or `BUTTON_RELEASED` (R109). -/
def isButtonWord (w : EventWord) : Bool := w.extractLsb' 32 4 == 0x1#4 || w.extractLsb' 32 4 == 0x2#4

/-- An event word of the kind `ROT_CW` or `ROT_CCW` (R109). -/
def isRotationWord (w : EventWord) : Bool := w.extractLsb' 32 4 == 0x3#4 || w.extractLsb' 32 4 == 0x4#4

theorem isButtonWord_rotation (q : BitVec 32) :
    isButtonWord (eventWord .rotCw q) = false ∧ isButtonWord (eventWord .rotCcw q) = false := by
  simp [isButtonWord, eventWord_kind, kindCode]

theorem isRotationWord_rotation (q : BitVec 32) :
    isRotationWord (eventWord .rotCw q) = true ∧ isRotationWord (eventWord .rotCcw q) = true := by
  simp [isRotationWord, eventWord_kind, kindCode]

theorem filter_buttonEvents (btn prev : Bool) :
    (buttonEvents btn prev).filter isButtonWord = buttonEvents btn prev ∧
      (buttonEvents btn prev).filter isRotationWord = [] := by
  revert btn prev
  decide

theorem filter_rotaryEvents (p : Params) (pair : BitVec 2) (rot count : Byte) :
    (rotaryEvents p pair rot count).filter isButtonWord = [] ∧
      (rotaryEvents p pair rot count).filter isRotationWord = rotaryEvents p pair rot count := by
  unfold rotaryEvents
  split
  · simp [isButtonWord_rotation, isRotationWord_rotation]
  · split
    · simp [isButtonWord_rotation, isRotationWord_rotation]
    · exact ⟨rfl, rfl⟩

theorem encStep_newButtonEvents (snap : Byte) (s : State) :
    ((encStep snap s).out.drop s.out.length).filter isButtonWord =
      buttonEvents (snapBtn s.params snap) s.buttonState := by
  rw [encStep_newEvents, List.filter_append, (filter_buttonEvents _ _).1, (filter_rotaryEvents _ _ _ _).1,
    List.append_nil]

theorem encStep_newRotationEvents (snap : Byte) (s : State) :
    ((encStep snap s).out.drop s.out.length).filter isRotationWord =
      rotaryEvents s.params (snapPair s.params snap) s.rotState s.rotCount := by
  rw [encStep_newEvents, List.filter_append, (filter_buttonEvents _ _).2, (filter_rotaryEvents _ _ _ _).2,
    List.nil_append]

/-- Settles O33: each concern's registers and events are functions of its own inputs. -/
theorem buttonAndRotaryAreIndependent : Obligations.ButtonAndRotaryAreIndependent := by
  intro x y s t s' t' hp hs ht
  obtain ⟨-, rfl⟩ := (inVariant_next _ _ _).1 hs
  obtain ⟨-, rfl⟩ := (inVariant_next _ _ _).1 ht
  refine ⟨fun hbtn hprev => ⟨?_, ?_⟩, fun hpair hrot hcount => ⟨?_, ?_, ?_⟩⟩
  · rw [encStep_buttonState, encStep_buttonState, hbtn]
  · refine (encStep_newButtonEvents x s).trans (Eq.trans ?_ (encStep_newButtonEvents y t).symm)
    rw [hbtn, hprev]
  · rw [encStep_rotState, encStep_rotState, hpair, hrot]
  · rw [encStep_rotCount, encStep_rotCount, hpair, hrot, hcount, hp]
  · refine (encStep_newRotationEvents x s).trans (Eq.trans ?_ (encStep_newRotationEvents y t).symm)
    rw [hpair, hrot, hcount, hp]

/-! ### A turn away from the detent and back (42_decoder_enc.md R183 to R187, 90_conflicts.md C3) -/

theorem getLsbD_shiftPair (rot : Byte) (pair : BitVec 2) {i : Nat} (hi : i < 8) :
    (shiftPair rot pair).getLsbD i = if i < 2 then pair.getLsbD i else rot.getLsbD (i - 2) := by
  rw [shiftPair, BitVec.getLsbD_or, BitVec.getLsbD_shiftLeft, BitVec.getLsbD_setWidth]
  split
  next h => simp [h, hi]
  next h => simp [h, hi, BitVec.getLsbD_of_ge pair i (Nat.le_of_not_lt h)]

theorem shiftPair_low (rot : Byte) (pair : BitVec 2) : (shiftPair rot pair).extractLsb' 0 2 = pair := by
  refine BitVec.eq_of_getLsbD_eq fun i hi => ?_
  rw [BitVec.getLsbD_extractLsb', Nat.zero_add, getLsbD_shiftPair rot pair (by omega), if_pos hi, decide_eq_true hi,
    Bool.true_and]

/-- Three new pairs fill the history up to the pair they start from. -/
theorem shiftPair_three (rot : Byte) (a b c : BitVec 2) :
    shiftPair (shiftPair (shiftPair rot a) b) c = rot.extractLsb' 0 2 ++ a ++ b ++ c := by
  refine BitVec.eq_of_getLsbD_eq fun i hi => ?_
  have hlast : i - 2 - 2 - 2 < 2 := by omega
  simp only [BitVec.getLsbD_append, BitVec.getLsbD_extractLsb', hlast, decide_true, Bool.true_and, Nat.zero_add]
  rw [getLsbD_shiftPair _ _ (by omega), getLsbD_shiftPair _ _ (by omega), getLsbD_shiftPair _ _ (by omega)]

/-- With the button unchanged a snapshot is the rotary decoder's alone. -/
theorem execSampleEncSnap_of_same_button {snap : Byte} {s : State} (hv : s.params.variant = .enc)
    (hbtn : snapBtn s.params snap = s.buttonState) :
    exec (.sampleEncSnap snap) s = .next (rotaryDecode (snapPair s.params snap) s) := by
  rw [execSampleEncSnap_eq snap hv, encStep, hbtn, classifyButton_same]

/-- `rot_state` after the snapshots `snaps`, each with a new pair. -/
def historyAfter (p : Params) (snaps : List Byte) (rot : Byte) : Byte := (snaps.map (snapPair p)).foldl shiftPair rot

theorem historyAfter_three (p : Params) (x y z : Byte) (rot : Byte) :
    historyAfter p [x, y, z] rot = rot.extractLsb' 0 2 ++ snapPair p x ++ snapPair p y ++ snapPair p z :=
  shiftPair_three rot _ _ _

/-- Nothing older than four pairs is left. -/
theorem historyAfter_four (p : Params) (w x y z : Byte) (rot : Byte) :
    historyAfter p [w, x, y, z] rot = snapPair p w ++ snapPair p x ++ snapPair p y ++ snapPair p z := by
  refine (historyAfter_three p x y z (shiftPair rot (snapPair p w))).trans ?_
  rw [shiftPair_low]

/-- Each of the pairs differs from the one before it, the first from `prev`. -/
def alwaysMoves (prev : BitVec 2) : List (BitVec 2) → Bool
  | [] => true
  | pair :: pairs => pair != prev && alwaysMoves pair pairs

theorem alwaysMoves_cons (prev pair : BitVec 2) (pairs : List (BitVec 2)) :
    alwaysMoves prev (pair :: pairs) = true ↔ pair ≠ prev ∧ alwaysMoves pair pairs = true := by
  rw [alwaysMoves, Bool.and_eq_true, bne_iff_ne]

/-- Snapshots with the button unchanged and always a new pair, the last at the detent and no other: only the last one
checks the history. -/
theorem execAll_turn (snaps : List Byte) (last : Byte) {s : State} (hv : s.params.variant = .enc)
    (hbtn : ∀ x ∈ snaps ++ [last], snapBtn s.params x = s.buttonState)
    (hmoves : alwaysMoves (s.rotState.extractLsb' 0 2) ((snaps ++ [last]).map (snapPair s.params)) = true)
    (haway : ∀ x ∈ snaps, snapPair s.params x ≠ s.params.rest) (hrest : snapPair s.params last = s.params.rest) :
    execAll ((snaps ++ [last]).map .sampleEncSnap) s =
      .next (restCheck { s with rotState := historyAfter s.params (snaps ++ [last]) s.rotState }) := by
  induction snaps generalizing s with
  | nil =>
    obtain ⟨hmove, -⟩ := (alwaysMoves_cons _ _ _).1 hmoves
    have hlast := execSampleEncSnap_of_same_button hv (hbtn last (List.mem_singleton_self _))
    rw [rotaryDecode_of_rest hmove hrest] at hlast
    exact execAll_cons [] hlast
  | cons x xs ih =>
    obtain ⟨hmove, hlater⟩ := (alwaysMoves_cons _ _ _).1 hmoves
    have hfirst := execSampleEncSnap_of_same_button hv (hbtn x List.mem_cons_self)
    rw [rotaryDecode_of_away hmove (haway x List.mem_cons_self)] at hfirst
    refine (execAll_cons _ hfirst).trans (ih hv (fun y hy => hbtn y (List.mem_cons_of_mem _ hy)) ?_
      (fun y hy => haway y (List.mem_cons_of_mem _ hy)) hrest)
    rw [shiftPair_low]
    exact hlater

/-- At R9's defaults, snapshots that leave the detent with the button up: each has a new pair, none is at the detent,
and the one that returns to the detent, 3, comes after them. -/
abbrev AwayFromDetent (snaps : List Byte) : Prop :=
  (∀ x ∈ snaps ++ [3#8], snapBtn (Params.default .enc) x = false) ∧
    alwaysMoves 0b11#2 ((snaps ++ [3#8]).map (snapPair (Params.default .enc))) = true ∧
    ∀ x ∈ snaps, snapPair (Params.default .enc) x ≠ 0b11#2

section
variable {snaps : List Byte} {s : State} {after : Byte} (haway : AwayFromDetent snaps)
  (hp : s.params = Params.default .enc) (hdetent : s.rotState.extractLsb' 0 2 = 0b11#2) (hup : s.buttonState = false)
  (hafter : historyAfter (Params.default .enc) (snaps ++ [3#8]) s.rotState = after)
include haway hp hdetent hup hafter

/-- The rest check at the end of an excursion from the detent sees the whole excursion's history. -/
theorem execAll_excursion :
    execAll ((snaps ++ [3#8]).map .sampleEncSnap) s = .next (restCheck { s with rotState := after }) := by
  obtain ⟨hbtn, hmoves, hpairs⟩ := haway
  have hv : s.params.variant = .enc := congrArg Params.variant hp
  have hrest : s.params.rest = 0b11#2 := congrArg Params.rest hp
  rw [← hafter]
  rw [← hp] at hbtn hmoves hpairs ⊢
  rw [← hup] at hbtn
  rw [← hdetent] at hmoves
  rw [← hrest] at hpairs
  have hback : snapPair s.params 3#8 = s.params.rest := hp ▸ rfl
  exact execAll_turn snaps 3#8 hv hbtn hmoves hpairs hback

theorem execAll_excursion_cw (hcw : after.extractLsb' 0 6 = 0b001011#6) :
    execAll ((snaps ++ [3#8]).map .sampleEncSnap) s =
      .next { s with
        rotState := after, rotCount := s.rotCount + 4#8
        out := s.out ++ [eventWord .rotCw ((s.rotCount + 4#8).setWidth 32)] } := by
  have hstep : s.params.rotStep = 4#8 := congrArg Params.rotStep hp
  have hno : after.extractLsb' 0 6 ≠ s.params.patCcw := by
    rw [hp, hcw]
    decide
  have hseen : after.extractLsb' 0 6 = s.params.patCw := hcw.trans (congrArg Params.patCw hp).symm
  rw [execAll_excursion haway hp hdetent hup hafter, restCheck_of_cw hno hseen, hstep]

theorem execAll_excursion_ccw (hccw : after.extractLsb' 0 6 = 0b000111#6) :
    execAll ((snaps ++ [3#8]).map .sampleEncSnap) s =
      .next { s with
        rotState := after, rotCount := s.rotCount - 4#8
        out := s.out ++ [eventWord .rotCcw ((s.rotCount - 4#8).setWidth 32)] } := by
  have hstep : s.params.rotStep = 4#8 := congrArg Params.rotStep hp
  have hseen : after.extractLsb' 0 6 = s.params.patCcw := hccw.trans (congrArg Params.patCcw hp).symm
  rw [execAll_excursion haway hp hdetent hup hafter, restCheck_of_ccw hseen, hstep]

theorem execAll_excursion_neither (hccw : after.extractLsb' 0 6 ≠ 0b000111#6)
    (hcw : after.extractLsb' 0 6 ≠ 0b001011#6) :
    execAll ((snaps ++ [3#8]).map .sampleEncSnap) s = .next { s with rotState := after } := by
  have hno : after.extractLsb' 0 6 ≠ s.params.patCcw ∧ after.extractLsb' 0 6 ≠ s.params.patCw := by
    rw [hp]
    exact ⟨hccw, hcw⟩
  rw [execAll_excursion haway hp hdetent hup hafter, restCheck_of_neither hno.1 hno.2]

end

/-- Settles O34: the corrected turns leave the histories 0x4B and 0x87, which hold a pattern; the uncorrected ones
0xD3 and 0xE3, which hold none. -/
theorem detentTurnsCountOnce : Obligations.DetentTurnsCountOnce := by
  intro s hp hdetent hup
  refine ⟨?_, ?_, ?_, ?_⟩
  · exact execAll_excursion_cw (snaps := [1#8, 0#8, 2#8]) (by decide) hp hdetent hup (historyAfter_four ..) rfl
  · exact execAll_excursion_ccw (snaps := [2#8, 0#8, 1#8]) (by decide) hp hdetent hup (historyAfter_four ..) rfl
  · have hafter := historyAfter_three (Params.default .enc) 1#8 0#8 3#8 s.rotState
    rw [hdetent] at hafter
    exact execAll_excursion_neither (snaps := [1#8, 0#8]) (by decide) hp hdetent hup hafter (by decide) (by decide)
  · have hafter := historyAfter_three (Params.default .enc) 2#8 0#8 3#8 s.rotState
    rw [hdetent] at hafter
    exact execAll_excursion_neither (snaps := [2#8, 0#8]) (by decide) hp hdetent hup hafter (by decide) (by decide)

end Sys2Proof.Machine

/-!
SUPPORT. The statement of the IR decoder's family: an edge after a history of sentinels, whatever stood before them.
-/
namespace Sys2Proof.Machine

/-! ### A span of two or more sentinels (43_decoder_ir.md R203, 90_conflicts.md C4) -/

/-- An edge with both samples before it sentinels: the step's whole next state. -/
theorem irStep_edge_of_sentinels {cur : Ts} {s : State} (hcur : cur ≠ s.params.sentinel)
    (hsent : s.hist1 = s.params.sentinel) (hsents : s.hist2 = s.params.sentinel) :
    irStep cur s = { s with hist2 := s.params.sentinel, hist1 := cur, out := s.out ++ [eventWord .gap 0#32] } := by
  rw [irStep_edge hcur, emit, irEvent_word_of_sentinels cur hsent hsents, shiftHistory, ← hsent]

/-- Settles O38: the run leaves a history of two sentinels and no event, and the edge after it emits the one `GAP`. -/
theorem anyRunOfSentinelsGivesOneGap : Obligations.AnyRunOfSentinelsGivesOneGap := by
  intro n cur s hv hcur hn
  obtain ⟨m, rfl⟩ := Nat.exists_eq_add_of_le' hn
  have hedge := execSampleIrEdge_eq (s := shiftHistory s.params.sentinel (shiftHistory s.params.sentinel s)) cur hv
  rw [execAll_append (execAll_sampleIrSents m hv), execAll_cons [] hedge]
  exact congrArg Host.Outcome.next (irStep_edge_of_sentinels hcur rfl rfl)

end Sys2Proof.Machine

/-!
SUPPORT. The statements of the RF decoder's family: what a sample does in each phase, the frame that the last falling
edge completes, and a whole capture phase as one list of times.
-/
namespace Sys2Proof.Machine

/-! ### The RF decoder step (44_decoder_rf.md R220 to R225) -/

theorem execSampleRfSent_eq (pol : Bool) {s : State} (hv : s.params.variant = .rf) :
    exec (.sampleRfSent pol) s = .next (rfStep pol s.params.sentinel s) :=
  (inVariant_next _ _ _).2 ⟨beq_iff_eq.2 hv, rfl⟩

theorem execSampleRfRise_eq (ts : Ts) {s : State} (hv : s.params.variant = .rf) :
    exec (.sampleRfRise ts) s = .next (rfStep true ts s) :=
  (inVariant_next _ _ _).2 ⟨beq_iff_eq.2 hv, rfl⟩

theorem execSampleRfFall_eq (ts : Ts) {s : State} (hv : s.params.variant = .rf) :
    exec (.sampleRfFall ts) s = .next (rfStep false ts s) :=
  (inVariant_next _ _ _).2 ⟨beq_iff_eq.2 hv, rfl⟩

theorem rfStep_disabled (pol : Bool) (ts : Ts) {s : State} (hen : s.rfEnable = false) : rfStep pol ts s = s := by
  rw [rfStep, hen, if_neg Bool.false_ne_true]

theorem rfStep_sentinel (pol : Bool) (s : State) : rfStep pol s.params.sentinel s = s := by
  rw [rfStep, if_pos rfl, ite_self]

/-- What an edge does to the enabled decoder in `CAPTURE`. -/
theorem rfStep_capture (pol : Bool) {ts : Ts} {s : State} (hen : s.rfEnable = true) (hts : ts ≠ s.params.sentinel)
    (hsync : s.syncFound = true) : rfStep pol ts s = if pol then captureRise ts s else captureFall ts s := by
  rw [rfStep, if_pos hen, if_neg hts, if_pos hsync]

/-- What an edge does to the enabled decoder in `SEARCH`. -/
theorem rfStep_search (pol : Bool) {ts : Ts} {s : State} (hen : s.rfEnable = true) (hts : ts ≠ s.params.sentinel)
    (hsync : s.syncFound = false) : rfStep pol ts s = if pol then searchRise ts s else s := by
  rw [rfStep, if_pos hen, if_neg hts, if_neg (Bool.not_eq_true _ ▸ hsync)]

/-- Settles O40: the disabled decoder's step is the identity. -/
theorem rfDisabledDiscardsSamples : Obligations.RfDisabledDiscardsSamples := by
  intro pol ts s hv hen
  rw [execSampleRfSent_eq pol hv, execSampleRfRise_eq ts hv, execSampleRfFall_eq ts hv]
  simp only [rfStep_disabled _ _ hen, and_self]

/-- Settles O41: the sentinel's step is the identity, enabled or not. -/
theorem rfSentinelChangesNothing : Obligations.RfSentinelChangesNothing := by
  intro pol s hv
  rw [execSampleRfSent_eq pol hv, rfStep_sentinel]

/-- Settles O42: in the capture phase only the baseline moves; in the search the step is `searchRise`, whose test is
the strict threshold. -/
theorem rfRisingEdgeOutcome : Obligations.RfRisingEdgeOutcome := by
  intro ts s hv hen hts
  rw [execSampleRfRise_eq ts hv]
  refine ⟨fun hsync => ?_, fun hsync hlong => ?_, fun hsync hshort => ?_⟩
  · rw [rfStep_capture true hen hts hsync]
    rfl
  · rw [rfStep_search true hen hts hsync]
    exact congrArg Host.Outcome.next (if_pos hlong)
  · rw [rfStep_search true hen hts hsync]
    exact congrArg Host.Outcome.next (if_neg (Nat.not_lt.2 hshort))

/-! ### A falling edge of the capture phase (44_decoder_rf.md R226 to R230) -/

/-- The five bits of `idx` hold the index after the last slot. -/
theorem fillSlot_idx (ts : Ts) {s : State} (h : s.idx.toNat < 24) : (fillSlot ts s).idx.toNat = s.idx.toNat + 1 :=
  (BitVec.toNat_add _ _).trans (Nat.mod_eq_of_lt (show s.idx.toNat + 1 < 32 by omega))

theorem fillSlot_slots_idx (ts : Ts) {s : State} (h : s.idx.toNat < 24) :
    (fillSlot ts s).slots[s.idx.toNat]? = some (rfDuration s.params s.base ts) :=
  Vector.getElem?_setIfInBounds_self_of_lt h

theorem fillSlot_slots_ne (ts : Ts) (s : State) {k : Nat} (h : k ≠ s.idx.toNat) :
    (fillSlot ts s).slots[k]? = s.slots[k]? :=
  Vector.getElem?_setIfInBounds_ne h.symm

theorem captureFall_eq (ts : Ts) {s : State} (h : s.idx.toNat < 24) :
    captureFall ts s =
      if s.idx.toNat + 1 = s.params.frameLen then completeFrame (fillSlot ts s) else fillSlot ts s := by
  rw [← fillSlot_idx ts h]
  rfl

/-- The next state of a completed frame, its event spelt out (R227 to R230). -/
theorem completeFrame_eq (s : State) :
    completeFrame s =
      { s with
        framePrev := reduceFrame s.params s.slots
        framePrevValid := true
        syncFound := false
        idx := 0#5
        out := s.out ++
          (if s.framePrevValid = true ∧ reduceFrame s.params s.slots = s.framePrev
            then [eventWord .frame ((reduceFrame s.params s.slots).setWidth 32)] else []) } := by
  unfold completeFrame
  by_cases h : s.framePrevValid = true ∧ reduceFrame s.params s.slots = s.framePrev
  · simp only [if_pos h]
    rfl
  · simp only [if_neg h, List.append_nil]
    rfl

/-- Settles O43: the search ignores the edge; in the capture phase the step is `fillSlot` until the last slot. -/
theorem rfFallingEdgeOutcome : Obligations.RfFallingEdgeOutcome := by
  intro ts s hv hen hts
  rw [execSampleRfFall_eq ts hv]
  refine ⟨fun hsync => ?_, fun hsync hlt hlen => ⟨fillSlot ts s, ?_, ?_, ?_, ?_, rfl⟩⟩
  · rw [rfStep_search false hen hts hsync]
    rfl
  · rw [rfStep_capture false hen hts hsync, if_neg Bool.false_ne_true, captureFall_eq ts (by omega),
      if_neg (Nat.ne_of_lt hlt)]
  · exact fillSlot_idx ts (by omega)
  · exact fillSlot_slots_idx ts (by omega)
  · exact fun k => fillSlot_slots_ne ts s

/-- Settles O44: the edge fills the last slot, and `completeFrame` follows in the same step. -/
theorem rfFrameCompletion : Obligations.RfFrameCompletion := by
  intro ts s hv hen hts hsync hlast hlen
  refine ⟨(fillSlot ts s).slots, fillSlot_slots_idx ts (by omega), fun k => fillSlot_slots_ne ts s, ?_⟩
  rw [execSampleRfFall_eq ts hv, rfStep_capture false hen hts hsync, if_neg Bool.false_ne_true,
    captureFall_eq ts (by omega), if_pos hlast, completeFrame_eq]
  rfl

/-! ### Words of the capture phase (30_encoding.md R106, 44_decoder_rf.md R225, R226) -/

/-- An RF word's class does what the decoder does on the word (R106, R253). -/
theorem exec_decodeSample_rf (w : Slot) {s : State} (hv : s.params.variant = .rf) :
    exec (decodeSample s.params w) s = .next (rfStep (w.getLsbD 16) (w.extractLsb' 0 16) s) := by
  rw [decodeSample_rf w hv, decodeSampleRf]
  split
  next hts => rw [execSampleRfSent_eq _ hv, hts]
  next =>
    split
    next hpol => rw [execSampleRfRise_eq _ hv, hpol]
    next hpol => rw [execSampleRfFall_eq _ hv, eq_false_of_ne_true hpol]

theorem isFall_iff {p : Params} {w : Slot} :
    isFall p w = true ↔ w.extractLsb' 0 16 ≠ p.sentinel ∧ w.getLsbD 16 = false := by
  rw [isFall, Bool.and_eq_true, bne_iff_ne, Bool.not_eq_true']

/-- The RF decoder is enabled and in the capture phase, with a frame that its registers hold. -/
structure Capturing (s : State) : Prop where
  variant : s.params.variant = .rf
  enabled : s.rfEnable = true
  capture : s.syncFound = true
  frameLen : s.params.frameLen ≤ 24

theorem Capturing.rfStep_fall {s : State} (k : Capturing s) {w : Slot} (hw : isFall s.params w = true) :
    rfStep (w.getLsbD 16) (w.extractLsb' 0 16) s = captureFall (w.extractLsb' 0 16) s := by
  obtain ⟨hts, hpol⟩ := isFall_iff.1 hw
  rw [rfStep_capture _ k.enabled hts k.capture, hpol, if_neg Bool.false_ne_true]

/-- Of the words that are no falling edge, a rising edge sets the baseline and a sentinel changes nothing. -/
theorem Capturing.rfStep_not_fall {s : State} (k : Capturing s) {w : Slot} (hw : isFall s.params w = false) :
    rfStep (w.getLsbD 16) (w.extractLsb' 0 16) s =
      captureRise (if isRise s.params w then w.extractLsb' 0 16 else s.base) s := by
  by_cases hts : w.extractLsb' 0 16 = s.params.sentinel
  · rw [isRise, hts, bne_self_eq_false, Bool.false_and, if_neg Bool.false_ne_true, rfStep_sentinel]
    rfl
  · have hpol : w.getLsbD 16 = true :=
      eq_true_of_ne_false fun hpol => Bool.false_ne_true (hw.symm.trans (isFall_iff.2 ⟨hts, hpol⟩))
    rw [rfStep_capture _ k.enabled hts k.capture, isRise, hpol, bne_iff_ne.2 hts]
    rfl

/-! ### A list of words in the capture phase (44_decoder_rf.md R225 to R230) -/

theorem baseAfter_fall {p : Params} {w : Slot} (base : Ts) (hw : isFall p w = true) : baseAfter p base [w] = base := by
  rw [baseAfter, isRise, (isFall_iff.1 hw).2, Bool.and_false, if_neg Bool.false_ne_true, baseAfter]

theorem fallTimes_cons (p : Params) (base : Ts) (w : Slot) (ws : List Slot) :
    fallTimes p base (w :: ws) = fallTimes p base [w] ++ fallTimes p (baseAfter p base [w]) ws := by
  cases hw : isFall p w with
  | true =>
    rw [baseAfter_fall base hw, fallTimes, fallTimes, if_pos hw, if_pos hw]
    rfl
  | false =>
    rw [fallTimes, fallTimes, hw, if_neg Bool.false_ne_true, if_neg Bool.false_ne_true]
    rfl

theorem baseAfter_append (p : Params) (base : Ts) (vs ws : List Slot) :
    baseAfter p base (vs ++ ws) = baseAfter p (baseAfter p base vs) ws := by
  induction vs generalizing base with
  | nil => rfl
  | cons v rest ih => exact ih _

theorem fallTimes_append (p : Params) (base : Ts) (vs ws : List Slot) :
    fallTimes p base (vs ++ ws) = fallTimes p base vs ++ fallTimes p (baseAfter p base vs) ws := by
  induction vs generalizing base with
  | nil => rfl
  | cons v rest ih =>
    rw [List.cons_append, fallTimes_cons, ih, ← List.append_assoc, ← fallTimes_cons]
    rfl

theorem fallTimes_length_le_append (p : Params) (base : Ts) (vs ws : List Slot) :
    (fallTimes p base vs).length ≤ (fallTimes p base (vs ++ ws)).length := by
  rw [fallTimes_append, List.length_append]
  exact Nat.le_add_right _ _

theorem fallTimes_append_fall {p : Params} {w : Slot} (base : Ts) (ws : List Slot) (hw : isFall p w = true) :
    fallTimes p base (ws ++ [w]) =
      fallTimes p base ws ++ [rfDuration p (baseAfter p base ws) (w.extractLsb' 0 16)] := by
  rw [fallTimes_append, fallTimes, if_pos hw]
  rfl

theorem fallTimes_append_not_fall {p : Params} {w : Slot} (base : Ts) (ws : List Slot) (hw : isFall p w = false) :
    fallTimes p base (ws ++ [w]) = fallTimes p base ws := by
  rw [fallTimes_append, fallTimes, if_neg (Bool.not_eq_true _ ▸ hw), fallTimes, List.append_nil]

theorem baseAfter_append_fall {p : Params} {w : Slot} (base : Ts) (ws : List Slot) (hw : isFall p w = true) :
    baseAfter p base (ws ++ [w]) = baseAfter p base ws := by
  rw [baseAfter_append, baseAfter_fall _ hw]

/-- The slots with these times written in order from the first slot on. -/
def fillSlots (slots : Vector Ts 24) (times : List Ts) : Vector Ts 24 := slots.mapIdx fun k old => times[k]?.getD old

theorem fillSlots_nil (slots : Vector Ts 24) : fillSlots slots [] = slots := by
  refine Vector.ext fun k hk => ?_
  rw [fillSlots, Vector.getElem_mapIdx, List.getElem?_nil, Option.getD_none]

theorem fillSlots_append (slots : Vector Ts 24) (times : List Ts) (d : Ts) :
    fillSlots slots (times ++ [d]) = (fillSlots slots times).setIfInBounds times.length d := by
  refine Vector.ext fun k hk => ?_
  rw [Vector.getElem_setIfInBounds, fillSlots, fillSlots, Vector.getElem_mapIdx, Vector.getElem_mapIdx]
  rcases Nat.lt_trichotomy k times.length with hlt | rfl | hgt
  · rw [if_neg (Nat.ne_of_gt hlt), List.getElem?_append_left hlt]
  · rw [if_pos rfl, List.getElem?_concat_length, Option.getD_some]
  · rw [if_neg (Nat.ne_of_lt hgt), List.getElem?_eq_none (Nat.le_of_lt hgt),
      List.getElem?_eq_none (by rw [List.length_append]; exact hgt)]

theorem fillSlots_of_getElem? {times : List Ts} {k : Nat} {d : Ts} (slots : Vector Ts 24) (h : times[k]? = some d)
    (hfit : times.length ≤ 24) : (fillSlots slots times)[k]? = some d := by
  have hk : k < times.length := (List.getElem?_eq_some_iff.1 h).1
  rw [fillSlots, Vector.getElem?_mapIdx, Vector.getElem?_eq_getElem (by omega), Option.map_some, h, Option.getD_some]

theorem fillSlots_of_length_le {times : List Ts} {k : Nat} (slots : Vector Ts 24) (h : times.length ≤ k) :
    (fillSlots slots times)[k]? = slots[k]? := by
  rw [fillSlots, Vector.getElem?_mapIdx, List.getElem?_eq_none h]
  exact Option.map_id_apply

/-- The capture phase, begun in `s`, after words that complete no frame. -/
def captured (ws : List Slot) (s : State) : State :=
  { s with
    slots := fillSlots s.slots (fallTimes s.params s.base ws)
    idx := BitVec.ofNat 5 (fallTimes s.params s.base ws).length
    base := baseAfter s.params s.base ws }

theorem captured_nil {s : State} (h : s.idx = 0#5) : captured [] s = s := by
  rw [captured, fallTimes, fillSlots_nil, List.length_nil, ← h, baseAfter]

theorem captured_idx {ws : List Slot} {s : State} (h : (fallTimes s.params s.base ws).length < 24) :
    (captured ws s).idx.toNat = (fallTimes s.params s.base ws).length :=
  (BitVec.toNat_ofNat _ _).trans (Nat.mod_eq_of_lt (by omega))

theorem captured_append_fall {ws : List Slot} {w : Slot} {s : State} (hw : isFall s.params w = true)
    (h : (fallTimes s.params s.base ws).length < 24) :
    captured (ws ++ [w]) s = fillSlot (w.extractLsb' 0 16) (captured ws s) := by
  rw [fillSlot, captured_idx h, captured, captured, fallTimes_append_fall _ _ hw, baseAfter_append_fall _ _ hw,
    fillSlots_append, List.length_append, List.length_singleton, BitVec.ofNat_add]

theorem captured_append_not_fall {ws : List Slot} {w : Slot} {s : State} (hw : isFall s.params w = false) :
    captured (ws ++ [w]) s =
      captureRise (if isRise s.params w then w.extractLsb' 0 16 else (captured ws s).base) (captured ws s) := by
  rw [captureRise, captured, captured, fallTimes_append_not_fall _ _ hw, baseAfter_append]
  rfl

theorem Capturing.captured_words {s : State} (k : Capturing s) (ws : List Slot) : Capturing (captured ws s) :=
  ⟨k.variant, k.enabled, k.capture, k.frameLen⟩

/-- One word more, after words that complete no frame. -/
theorem execAll_append_word {ws : List Slot} {s : State} (w : Slot) (hv : s.params.variant = .rf)
    (h : execAll (ws.map (decodeSample s.params)) s = .next (captured ws s)) :
    execAll ((ws ++ [w]).map (decodeSample s.params)) s =
      .next (rfStep (w.getLsbD 16) (w.extractLsb' 0 16) (captured ws s)) := by
  rw [List.map_append, execAll_append h]
  exact execAll_cons [] (exec_decodeSample_rf (s := captured ws s) w hv)

/-- A falling edge more fills the next slot, and completes the frame when that was the last one. -/
theorem Capturing.rfStep_captured_fall {ws : List Slot} {w : Slot} {s : State} (k : Capturing s)
    (hw : isFall s.params w = true) (hroom : (fallTimes s.params s.base ws).length < s.params.frameLen) :
    rfStep (w.getLsbD 16) (w.extractLsb' 0 16) (captured ws s) =
      if (fallTimes s.params s.base (ws ++ [w])).length = s.params.frameLen
        then completeFrame (captured (ws ++ [w]) s) else captured (ws ++ [w]) s := by
  have hfit := Nat.lt_of_lt_of_le hroom k.frameLen
  have hidx := captured_idx hfit
  rw [(k.captured_words ws).rfStep_fall hw, captureFall_eq _ (hidx ▸ hfit), hidx, captured_append_fall hw hfit,
    fallTimes_append_fall _ _ hw, List.length_append]
  rfl

/-- Words whose falling edges leave a slot to fill complete no frame: by induction on the words, the last one first. -/
theorem Capturing.execAll_captured {s : State} (k : Capturing s) (hidx : s.idx = 0#5) (ws : List Slot)
    (hroom : (fallTimes s.params s.base ws).length < s.params.frameLen) :
    execAll (ws.map (decodeSample s.params)) s = .next (captured ws s) := by
  obtain ⟨rev, rfl⟩ : ∃ rev, ws = rev.reverse := ⟨ws.reverse, ws.reverse_reverse.symm⟩
  induction rev with
  | nil => exact congrArg Host.Outcome.next (captured_nil hidx).symm
  | cons w rev ih =>
    rw [List.reverse_cons] at hroom ⊢
    have hlt := Nat.lt_of_le_of_lt (fallTimes_length_le_append s.params s.base rev.reverse [w]) hroom
    rw [execAll_append_word w k.variant (ih hlt)]
    cases hw : isFall s.params w with
    | true => rw [k.rfStep_captured_fall hw hlt, if_neg (Nat.ne_of_lt hroom)]
    | false =>
      rw [(k.captured_words rev.reverse).rfStep_not_fall hw, captured_append_not_fall hw]
      rfl

/-- Words whose last one is the falling edge of the last slot complete the frame. -/
theorem Capturing.execAll_frame {s : State} (k : Capturing s) (hidx : s.idx = 0#5) {ws : List Slot} {w : Slot}
    (hw : isFall s.params w = true)
    (hfalls : (fallTimes s.params s.base (ws ++ [w])).length = s.params.frameLen) :
    execAll ((ws ++ [w]).map (decodeSample s.params)) s = .next (completeFrame (captured (ws ++ [w]) s)) := by
  have hlt : (fallTimes s.params s.base ws).length < s.params.frameLen := by
    rw [← hfalls, fallTimes_append_fall _ _ hw, List.length_append]
    exact Nat.lt_succ_self _
  rw [execAll_append_word w k.variant (k.execAll_captured hidx ws hlt), k.rfStep_captured_fall hw hlt, if_pos hfalls]

/-- Settles O46: the words before the last falling edge fill the slots, and the last one completes the frame. -/
theorem twentyFourFallsMakeAFrame : Obligations.TwentyFourFallsMakeAFrame := by
  intro ws s hv hen hsync hidx hlegal hfalls hlast
  have hlen := paramsLegal_frameLen_le hlegal
  rcases List.eq_nil_or_concat ws with rfl | ⟨vs, w, hws⟩
  · exact absurd hfalls (Nat.ne_of_lt (paramsLegal_frameLen_pos hlegal))
  · rw [List.concat_eq_append] at hws
    subst hws
    have hw : isFall s.params w = true := hlast w List.getLast?_concat
    have k : Capturing s := ⟨hv, hen, hsync, hlen⟩
    refine ⟨_, k.execAll_frame hidx hw hfalls, ?_⟩
    rw [completeFrame_eq]
    exact ⟨fun i d hd => fillSlots_of_getElem? s.slots hd (hfalls ▸ hlen),
      fun i hi => fillSlots_of_length_le s.slots (hfalls ▸ hi), rfl⟩

end Sys2Proof.Machine

/-!
SUPPORT. The statements of the control family: what a popped word's class does, the host's `RFEN` and `TMO`, and that no
instruction writes the launch parameters or the remaining moves.
-/
namespace Sys2Proof.Machine

/-! ### The consumer step (45_control.md R253) -/

/-- An IR word's class does what the decoder does on the word (R106, R253). -/
theorem exec_decodeSample_ir (w : Slot) {s : State} (hv : s.params.variant = .ir) :
    exec (decodeSample s.params w) s = .next (irStep (w.extractLsb' 0 16) s) := by
  rw [decodeSample_ir w hv, decodeSampleIr]
  split
  next hts => rw [execSampleIrSent_eq hv, hts]
  next => rw [execSampleIrEdge_eq _ hv]

/-- A word's class does what its variant's decoder does on the word. -/
theorem exec_decodeSample (w : Slot) (s : State) :
    exec (decodeSample s.params w) s = .next (decoderStep w s) := by
  unfold decoderStep
  split
  next hv => rw [decodeSample_enc w hv, execSampleEncSnap_eq _ hv]
  next hv => exact exec_decodeSample_ir w hv
  next hv => exact exec_decodeSample_rf w hv

theorem execCstep_pending {s : State} (h : pending s = true) :
    exec .cstep s = .next (decoderStep (pop s).1 (pop s).2) :=
  congrArg Host.Outcome.next (if_pos h)

theorem execCstep_idle {s : State} (h : pending s = false) : exec .cstep s = .next s :=
  congrArg Host.Outcome.next (if_neg (Bool.not_eq_true _ ▸ h))

/-- Settles O7: `pop` keeps the parameters, so the word is classified by the ones the decoder runs with. -/
theorem cstepPopsAndDecodesOrIdles : Obligations.CstepPopsAndDecodesOrIdles := fun s =>
  ⟨fun h => ⟨_, execCstep_pending h, pop_params s ▸ exec_decodeSample (pop s).1 (pop s).2⟩, execCstep_idle⟩

/-! ### The launch parameters and the host's moves (45_control.md R257) -/

theorem resetStep_moves (init : Byte) (s : State) : (resetStep init s).moves = s.moves := by
  unfold resetStep
  split <;> rfl

theorem rfenStep_moves (v : Bool) (s : State) : (rfenStep v s).moves = s.moves := by
  unfold rfenStep
  split <;> rfl

theorem pinStep_moves (v : Byte) (s : State) : (pinStep v s).moves = s.moves :=
  pushAll_moves _ s

theorem pstepStep_moves (lvl tick : Bool) (s : State) : (pstepStep lvl tick s).moves = s.moves :=
  (pushAll_moves _ _).trans (countTick_moves tick _)

/-- Where the row lists the variant, the state answered is the meaning's. -/
theorem inVariant_next_eq {listed : Bool} {t u : State} (h : inVariant listed t = .next u) : t = u :=
  ((inVariant_next _ _ _).1 h).2

/-- Every instruction leaves the host's remaining moves: the decoders by their frame, the others each by its own law. -/
theorem exec_moves {i : Instr} {s t : State} (h : exec i s = .next t) : t.moves = s.moves := by
  cases i with
  | pin v => exact inVariant_next_eq h ▸ pinStep_moves v s
  | pstep lvl tick => exact inVariant_next_eq h ▸ pstepStep_moves lvl tick s
  | sync => exact Host.Outcome.next.inj h ▸ syncShift_moves s
  | cstep =>
    rcases execCstep_cases h with ⟨-, rfl⟩ | ⟨-, rfl⟩
    · exact (decoderStep_frame _ _).moves.trans (pop_moves s)
    · rfl
  | reset init => exact execReset_next h ▸ resetStep_moves init s
  | rfen v => exact inVariant_next_eq h ▸ rfenStep_moves v s
  | tmo => exact inVariant_next_eq h ▸ (tmoStep_frame s).moves
  | _ => exact (exec_decoderOutcome rfl (by simp) h).frame.moves

/-- Settles O24: the parameters by `exec_appends`, whose law keeps them, the moves by `exec_moves`. -/
theorem parametersAndMovesAreNeverWritten : Obligations.ParametersAndMovesAreNeverWritten := fun _ _ _ h =>
  ⟨(exec_appends h).params, exec_moves h⟩

/-! ### `RFEN` and `TMO` (45_control.md R255, R256) -/

theorem execRfen_eq (v : Bool) {s : State} (hv : s.params.variant = .rf) :
    exec (.rfen v) s = .next (rfenStep v s) :=
  (inVariant_next _ _ _).2 ⟨beq_iff_eq.2 hv, rfl⟩

theorem execTmo_eq {s : State} (hv : s.params.variant = .rf) : exec .tmo s = .next (tmoStep s) :=
  (inVariant_next _ _ _).2 ⟨beq_iff_eq.2 hv, rfl⟩

/-- The change from 0 to 1 restarts the search. -/
theorem rfenStep_of_rise {v : Bool} {s : State} (h : s.rfEnable = false ∧ v = true) :
    rfenStep v s = { restartSearch s with rfEnable := v } := by
  rw [rfenStep, if_pos h]

theorem rfenStep_of_not_rise {v : Bool} {s : State} (h : ¬(s.rfEnable = false ∧ v = true)) :
    rfenStep v s = { s with rfEnable := v } := by
  rw [rfenStep, if_neg h]

/-- Settles O48: the two branches of `rfenStep`. -/
theorem rfenOutcome : Obligations.RfenOutcome := by
  intro v s hv
  rw [execRfen_eq v hv]
  refine ⟨fun hoff hon => ?_, fun h => by rw [rfenStep_of_not_rise h]⟩
  rw [rfenStep_of_rise ⟨hoff, hon⟩, hon]
  rfl

theorem tmoStep_capture {s : State} (h : s.syncFound = true) : tmoStep s = restartSearch s := if_pos h

theorem tmoStep_search {s : State} (h : s.syncFound = false) : tmoStep s = s := if_neg (Bool.not_eq_true _ ▸ h)

/-- Settles O49: in `CAPTURE` the step is `restartSearch`, in `SEARCH` the identity. -/
theorem tmoOutcome : Obligations.TmoOutcome := by
  intro s hv
  rw [execTmo_eq hv]
  exact ⟨fun h => congrArg Host.Outcome.next (tmoStep_capture h), fun h => congrArg Host.Outcome.next (tmoStep_search h)⟩

end Sys2Proof.Machine

/-!
SUPPORT. The statement of the exceptions family: which instructions answer a next state, and that the others are refused.
-/
namespace Sys2Proof.Machine

/-! ### Legal instructions step, the others are refused (30_encoding.md R114, 60_exceptions.md R270) -/

theorem legalIn_listed_operands {i : Instr} {v : Variant} (h : i.legalIn v = true) :
    i.listedIn v = true ∧ i.operandsLegalIn v = true := by
  simp only [Instr.legalIn, Bool.and_eq_true] at h
  obtain ⟨⟨-, hlisted⟩, hops⟩ := h
  exact ⟨hlisted, hops⟩

/-- An instruction of another variant, or with operands the variant forbids, is refused: a next state would make it
listed with allowed operands. -/
theorem exec_refused_of_not_listed {i : Instr} {s : State}
    (h : (i.listedIn s.params.variant && i.operandsLegalIn s.params.variant) = false) : ∃ r, exec i s = .refused r := by
  refine exec_refused_of_not_next fun t ht => ?_
  have hlegal := Bool.and_eq_true_iff.2 (exec_next_listed i s t ht)
  exact Bool.false_ne_true (h.symm.trans hlegal)

/-- Settles O51: `Fault` has no values, and `exec` answers a next state exactly for the listed instructions with allowed
operands. -/
theorem legalInstructionsAlwaysStep : Obligations.LegalInstructionsAlwaysStep := by
  intro i s
  refine ⟨(fun r _ => nomatch r), fun hlegal => ?_, exec_refused_of_not_listed⟩
  obtain ⟨hlisted, hops⟩ := legalIn_listed_operands hlegal
  exact exec_next_of_listed hlisted hops

end Sys2Proof.Machine

/-!
SUPPORT. The statements across families: the order of the samples, without overrun and after it, the flags of the
consumer's view, and the single facts of the decoders.
-/
namespace Sys2Proof.Machine

/-! ### The consumer's view (40_fifo.md R134, R135, R139) -/

/-- `gray2bin` and `bin2gray` undo each other, this way round too. -/
theorem bin2gray_gray2bin (g : Byte) : bin2gray (gray2bin g) = g := by
  revert g
  decide

theorem lastStage_eq_bin2gray_wrC (s : State) : lastStage s = bin2gray (wrC s) :=
  (bin2gray_gray2bin (lastStage s)).symm

theorem pending_iff_rdBin_ne_wrC {s : State} (hgray : GrayCoherent s) : pending s = true ↔ s.rdBin ≠ wrC s := by
  rw [pending, lastStage_eq_bin2gray_wrC, hgray.2, bne_iff_ne, Ne, bin2gray_inj]

theorem wrC_lt_depth {s : State} (h : StagesInRange s) : (wrC s).toNat < s.params.depth := by
  rw [wrC, lastStage, List.getLastD_eq_getLast?]
  cases hlast : s.wsync.getLast? with
  | none => exact s.params.depth_pos
  | some g => exact h g (List.mem_of_getLast? hlast)

/-- Two cursors in range are equal exactly when their distance is 0. -/
theorem cursorDist_eq_zero_iff {p : Params} {a b : Byte} (hp : p.ptrW ≤ 8) (ha : a.toNat < p.depth)
    (hb : b.toNat < p.depth) : cursorDist p a b = 0 ↔ b = a := by
  constructor
  · intro hzero
    have hahead := cursorOf_add_cursorDist hp ha hb
    rwa [hzero, Nat.add_zero, cursorOf_of_lt hb] at hahead
  · rintro rfl
    rw [cursorDist, BitVec.sub_self, BitVec.zero_and]
    rfl

/-- Settles O12: the gray code is a bijection, and cursors in range are equal exactly at distance 0. -/
theorem pendingMeansTheCursorsDiffer : Obligations.PendingMeansTheCursorsDiffer := by
  rintro s ⟨-, -, -, hptr, -⟩ hgray ⟨-, hrd⟩ hstages
  have hpending := pending_iff_rdBin_ne_wrC hgray
  have hcount : countC s = 0 ↔ s.rdBin = wrC s := cursorDist_eq_zero_iff hptr (wrC_lt_depth hstages) hrd
  exact ⟨hpending, hpending.trans (not_congr hcount.symm), cursorDist_lt _ _ _ hptr, cursorDist_eq _ _ _ hptr hrd⟩

theorem Tracks.wrC {s : State} {h : History} (k : Tracks s h) : wrC s = cursorOf s.params h.view := by
  rw [Machine.wrC, k.lastStage, grayOf, gray2bin_bin2gray]

/-- While the view is less than a lap ahead, `count_c` is how far ahead it is. -/
theorem Tracks.countC_eq {s : State} {h : History} (k : Tracks s h) (hlap : h.view < s.nPop + s.params.depth) :
    countC s = h.view - s.nPop := by
  rw [countC, k.wrC, k.read_cursor, cursorDist_cursorOf _ _ _ k.ptrW_le k.popped_seen hlap]

/-- Settles O17: the view stands between the two counts, so it is less than a lap ahead when the pushes are. -/
theorem withoutOverrunPopsAreTheNextSample : Obligations.WithoutOverrunPopsAreTheNextSample := fun _ _ k ho =>
  ⟨k.popped_seen, k.view_le, k.countC_eq (Nat.lt_of_le_of_lt k.view_le ho), k.pop_next ho⟩

/-- Settles O18: a pending sample was pushed and not popped, and less than a lap apart its slot and the next one
written differ. -/
theorem collisionNeedsOverrun : Obligations.CollisionNeedsOverrun := by
  intro s h k hp heq
  have hahead : s.nPop < s.nPush := Nat.lt_of_lt_of_le (k.popped_lt_view hp) k.view_le
  have hslot : s.nPush % s.params.depth = s.nPop % s.params.depth := k.collision_iff.1 (beq_iff_eq.2 heq)
  by_contra hlap
  exact mod_ne_of_lt_of_lt_add hahead (by omega) hslot.symm

/-! ### The order of the samples popped (20_memory.md R80, 40_fifo.md R140) -/

theorem Tracks.popped_length_le {s : State} {h : History} (k : Tracks s h) : h.popped.length ≤ h.pushed.length := by
  rw [k.popped_count, k.pushed_count]
  exact Nat.le_trans k.popped_seen k.view_le

/-- Later pushes do not come among the first samples. -/
theorem InOrder.append_pushed {h : History} (ho : InOrder h) (hle : h.popped.length ≤ h.pushed.length)
    (ws : List Slot) : InOrder { h with pushed := h.pushed ++ ws } := by
  rw [InOrder, List.take_append_of_le_length hle]
  exact ho

/-- Popping the next sample pushed keeps the order. -/
theorem InOrder.append_popped {h : History} (ho : InOrder h) {w : Slot} (hw : h.pushed[h.popped.length]? = some w) :
    InOrder { h with popped := h.popped ++ [w] } := by
  rw [InOrder, List.length_append, List.length_singleton, List.take_add_one, ← ho, hw]
  rfl

theorem InOrder.after_cstep {s : State} {h : History} (ho : InOrder h) (k : Tracks s h) (hno : NoOverrun s) :
    InOrder (h.after .cstep s) := by
  rw [History.after, poppedBy]
  by_cases hp : pending s = true
  · obtain ⟨w, hw, hpop⟩ := k.pop_next hno hp
    rw [if_pos hp, hpop]
    exact ho.append_popped (k.popped_count ▸ hw)
  · rw [if_neg hp, List.append_nil]
    exact ho

/-- Settles O15: a push adds behind the samples popped, a pop takes the next one, a reset starts anew, and no other
instruction pushes or pops. -/
theorem orderIsKeptWithoutOverrun : Obligations.OrderIsKeptWithoutOverrun := by
  intro i s t h k ho hno _
  cases i with
  | pin v => exact ho.append_pushed k.popped_length_le _
  | pstep lvl tick => exact ho.append_pushed k.popped_length_le _
  | cstep => exact ho.after_cstep k hno
  | reset init => exact rfl
  | _ => exact ho

/-! ### What is left after an overrun (40_fifo.md R141, 90_conflicts.md C2) -/

/-- After `SETTLE` a history's state is `m` samples behind, seen from any count `r` that the read cursor shows. -/
theorem Tracks.settledBehind {s : State} {h : History} (k : Tracks s h) {r m : Nat} (hwithin : m < s.params.depth)
    (hread : s.nPop % s.params.depth = r % s.params.depth) (hwrite : s.nPush = r + m) :
    SettledBehind (Machine.settle s) r m where
  ptrW := k.ptrW_le
  within := hwithin
  gray := k.gray
  last_stage := getLastD_replicate k.stages_pos _ _
  write_cursor := hwrite ▸ k.write_cursor
  read_cursor := k.read_cursor.trans ((cursorOf_eq_iff _ _ _ k.ptrW_le).2 hread)

/-- With a sample left the pop reads its slot and draws nothing. -/
theorem SettledBehind.pop_listed {s : State} {r m : Nat} (k : SettledBehind s r (m + 1)) {w : Slot}
    (hw : memRead s.mem (r % s.params.depth) = some w) : Machine.pop s = (w, advanceRead s) := by
  have hne : s.rdBin ≠ s.wrBin := by
    rw [k.read_cursor, k.write_cursor, Ne, cursorOf_eq_iff _ _ _ k.ptrW]
    exact mod_ne_of_lt_of_lt_add (by omega) (Nat.add_lt_add_left k.within r)
  have hread : readSlot s = (w, s) :=
    readSlot_of_listed hne (by rw [k.read_cursor, cursorOf_toNat _ _ k.ptrW, hw])
  rw [Machine.pop, hread]

/-- The pops return the samples that stand in the slots from the read cursor on, and leave none. -/
theorem SettledBehind.popWhile_listed {s : State} {r fuel : Nat} {ws : List Slot}
    (k : SettledBehind s r ws.length) (hfuel : ws.length ≤ fuel)
    (hmem : ∀ j w, ws[j]? = some w → memRead s.mem ((r + j) % s.params.depth) = some w) :
    (popWhile fuel s).1 = ws ∧ pending (popWhile fuel s).2 = false := by
  induction ws generalizing s r fuel with
  | nil =>
    have hp : pending s = false := eq_false_of_ne_true fun hp => absurd (k.pending_iff.1 hp) (Nat.lt_irrefl 0)
    rw [popWhile_of_not_pending fuel hp]
    exact ⟨rfl, hp⟩
  | cons w ws ih =>
    obtain ⟨n, rfl⟩ := Nat.exists_eq_add_of_le' (Nat.le_trans (Nat.succ_pos ws.length) hfuel)
    have hpop := k.pop_listed (hmem 0 w rfl)
    have hnext : ∀ j v, ws[j]? = some v →
        memRead (Machine.pop s).2.mem ((r + 1 + j) % (Machine.pop s).2.params.depth) = some v := by
      intro j v hv
      rw [pop_mem, pop_params, Nat.add_assoc, Nat.add_comm 1 j]
      exact hmem (j + 1) v hv
    obtain ⟨hrest, hdone⟩ := ih k.pop (Nat.le_of_succ_le_succ hfuel) hnext
    rw [popWhile_of_pending n (k.pending_iff.2 (Nat.succ_pos _)), hrest, hpop]
    exact ⟨rfl, hpop ▸ hdone⟩

/-- After `SETTLE` the pops return the last `m` samples pushed, less than a lap of them, when the read cursor shows the
count before them: overrun loses whole laps. -/
theorem Tracks.popWhile_last {s : State} {h : History} (k : Tracks s h) {r m fuel : Nat}
    (hwithin : m < s.params.depth) (hread : s.nPop % s.params.depth = r % s.params.depth) (hwrite : s.nPush = r + m)
    (hfuel : m ≤ fuel) :
    (popWhile fuel (Machine.settle s)).1 = h.pushed.drop r ∧
      pending (popWhile fuel (Machine.settle s)).2 = false := by
  have hlen : (h.pushed.drop r).length = m := by
    rw [List.length_drop, k.pushed_count, hwrite, Nat.add_sub_cancel_left]
  have hbehind := k.settledBehind hwithin hread hwrite
  rw [← hlen] at hbehind
  refine hbehind.popWhile_listed (hlen ▸ hfuel) fun j w hw => ?_
  rw [List.getElem?_drop] at hw
  exact k.window (r + j) w hw (by omega)

/-- Settles O21: the pops lose whole laps, so the read cursor shows the count of the first of the last
`N mod DEPTH` samples. -/
theorem overrunLeavesTheLastSamples : Obligations.OverrunLeavesTheLastSamples := by
  intro s h ws k hempty _
  have kpush := k.pushAll ws
  have hwithin := Nat.mod_lt ws.length s.params.depth_pos
  have hle := Nat.mod_le ws.length s.params.depth
  have hbefore : h.pushed.length = s.nPop := k.pushed_count.trans hempty
  have hlaps : s.nPop % s.params.depth =
      (h.pushed.length + (ws.length - ws.length % s.params.depth)) % s.params.depth := by
    rw [hbefore, ← Nat.mul_div_self_eq_mod_sub_self, Nat.add_mul_mod_self_left]
  have hlast := kpush.popWhile_last (r := h.pushed.length + (ws.length - ws.length % s.params.depth))
    (m := ws.length % s.params.depth) (fuel := s.params.depth - 1) (by rwa [pushAll_params])
    (by rwa [pushAll_params, pushAll_nPop]) (by rw [pushAll_nPush, k.pushed_count]; omega) (by omega)
  rwa [List.drop_length_add_append, ← syncTimes_stages kpush.stagesMatch, pushAll_params] at hlast

/-! ### The rotation events of a snapshot (42_decoder_enc.md R189) -/

theorem rotaryEvents_length_le_one (p : Params) (pair : BitVec 2) (rot count : Byte) :
    (rotaryEvents p pair rot count).length ≤ 1 := by
  unfold rotaryEvents
  split
  · exact Nat.le_refl 1
  · split
    · exact Nat.le_refl 1
    · exact Nat.zero_le 1

/-- Settles O32: a snapshot's rotation events are the rotary decoder's, which takes one branch. -/
theorem atMostOneRotationEvent : Obligations.AtMostOneRotationEvent := by
  intro snap s t hx
  obtain ⟨-, rfl⟩ := (inVariant_next _ _ _).1 hx
  have hnew := encStep_newRotationEvents snap s
  exact (congrArg List.length hnew).trans_le (rotaryEvents_length_le_one _ _ _ _)

/-! ### The spec's words (95_test_vectors.md) -/

/-- Settles O4, word by word: each is a closed term. -/
theorem specWordsDecode : Obligations.SpecWordsDecode := by
  unfold Obligations.SpecWordsDecode
  decide

/-! ### The ticks of a pulse (43_decoder_ir.md R208) -/

/-- The bridge adds one counter period, which puts its end after every start. -/
theorem bridgedTicks_of_wrapSpan {p : Params} (hspan : p.wrapSpan = 65536) (start cur : Ts) :
    bridgedTicks p start cur = cur.toNat + 65536 - start.toNat := by
  have hstart := start.isLt
  rw [bridgedTicks, hspan, if_pos (by omega)]

/-- Settles O37: both ends of a pulse are counts from 1 to 65535. -/
theorem irTickBounds : Obligations.IrTickBounds := by
  intro p start cur hspan hstart hcur
  have hstart0 := BitVec.toNat_pos_of_ne_zero hstart
  have hcur0 := BitVec.toNat_pos_of_ne_zero hcur
  have hstart16 := start.isLt
  have hcur16 := cur.isLt
  rw [bridgedTicks_of_wrapSpan hspan, plainTicks]
  omega

end Sys2Proof.Machine
